-- ==== Sys2Proof/Word.lean ====
section
/-!
DEFINITION. The two word types of the block: a byte of a frame (00_scope R9: "A byte is 8 bits, a value in 0 .. 255")
and the 16-bit command word (30_encoding R85). Everything else the block counts (times, lengths, frequencies, operands
wider than their field) is a natural number, since nothing in the block is signed and no sum wraps unless a rule says so.
-/

namespace Sys2Proof

/-- A byte, bit 0 its least significant bit (R8, R9). -/
abbrev Byte := BitVec 8

/-- The command word `CW`: `CW[15:8]` = OP, `CW[7:0]` = ARG (R85). -/
abbrev Word := BitVec 16

end Sys2Proof
end

