-- ==== Sys2Proof/Syntax.lean ====
section
/-!
DEFINITION. The eight operations of the opcode map (30_encoding R86), one constructor per row of spec/opcode_table.json.
The operands that do not fit in the command word (HDR, CFG, INFO, BUF_IN, GOT, EXP, BASE, CHAN) are on the ports of the
state (R85), so an operation carries its ARG only.
-/

namespace Sys2Proof

/-- An operation the host selects by a command word. An ARG the map calls "ignored" is kept as it stands, so that no bit
of a command word is lost; no meaning reads it. A presented length is a count and so a `Nat` (`Instr.wf` bounds it). -/
inductive Instr where
  /-- ENC_CFG (R100): ARG ignored. -/
  | encCfg (arg : Byte)
  /-- DEC_CFG (R104): ARG = n, the presented length of BUF_IN. -/
  | decCfg (n : Nat)
  /-- ENC_INFO (R120): ARG ignored. -/
  | encInfo (arg : Byte)
  /-- DEC_INFO (R123): ARG = n, the presented length of BUF_IN. -/
  | decInfo (n : Nat)
  /-- SET_MODE (R130): ARG = t, the target code of R81. -/
  | setMode (t : Byte)
  /-- WAIT_READY (R148): ARG ignored. -/
  | waitReady (arg : Byte)
  /-- HDR_CHK (R160): ARG ignored. -/
  | hdrChk (arg : Byte)
  /-- CHAN_FREQ (R163): ARG ignored. -/
  | chanFreq (arg : Byte)
  deriving DecidableEq, Repr

end Sys2Proof
end

