-- ==== Sys2Proof/WellFormed.lean ====
section
/-!
DEFINITION. Which terms of `Instr` are operations the block can be given: ARG is an unsigned 8-bit value used as it
stands (30_encoding R84), so a presented length is at most 255 (10_state R27). A target code of SET_MODE is any byte: codes
4 to 255 are operations too, which end with InvalidParameter (R88).
-/

namespace Sys2Proof

/-- The operation has a command word: its ARG fits in eight bits. -/
def Instr.wf : Instr → Bool
  | .encCfg _ => true
  | .decCfg n => decide (n < 256)
  | .encInfo _ => true
  | .decInfo n => decide (n < 256)
  | .setMode _ => true
  | .waitReady _ => true
  | .hdrChk _ => true
  | .chanFreq _ => true

end Sys2Proof
end

