-- ==== Sys2Proof/Decode.lean ====
section
/-!
DEFINITION. Command words to operations and back (30_encoding R85, R86, R87): one format, one length, no mode bit
(R90). An OP outside the map is rejected by name; what the block then does (NotSupported) is `Machine.rejectCommand`.
-/

namespace Sys2Proof

/-- Why a command word is no operation. -/
inductive DecodeError where
  /-- OP is not in the opcode map (R87). Raised by `decode`; safe: the step that meets it returns NotSupported. -/
  | illegalOp (op : Byte)
  deriving DecidableEq, Repr

/-- `CW[15:8]` (R85). -/
def opOf (w : Word) : Byte := w.extractLsb' 8 8

/-- `CW[7:0]` (R85). -/
def argOf (w : Word) : Byte := w.extractLsb' 0 8

/-- The opcode map (R86) read from OP to the operation. -/
def decode (w : Word) : Except DecodeError Instr :=
  match (opOf w).toNat with
  | 0x01 => .ok (.encCfg (argOf w))
  | 0x02 => .ok (.decCfg (argOf w).toNat)
  | 0x03 => .ok (.encInfo (argOf w))
  | 0x04 => .ok (.decInfo (argOf w).toNat)
  | 0x10 => .ok (.setMode (argOf w))
  | 0x11 => .ok (.waitReady (argOf w))
  | 0x20 => .ok (.hdrChk (argOf w))
  | 0x21 => .ok (.chanFreq (argOf w))
  | _ => .error (.illegalOp (opOf w))

/-- The OP column of the opcode map (R86). -/
def opcode : Instr → Byte
  | .encCfg _ => 0x01
  | .decCfg _ => 0x02
  | .encInfo _ => 0x03
  | .decInfo _ => 0x04
  | .setMode _ => 0x10
  | .waitReady _ => 0x11
  | .hdrChk _ => 0x20
  | .chanFreq _ => 0x21

/-- The ARG column of the opcode map (R86). -/
def argument : Instr → Byte
  | .encCfg arg => arg
  | .decCfg n => BitVec.ofNat 8 n
  | .encInfo arg => arg
  | .decInfo n => BitVec.ofNat 8 n
  | .setMode t => t
  | .waitReady arg => arg
  | .hdrChk arg => arg
  | .chanFreq arg => arg

/-- The command word of an operation: `(OP << 8) | ARG` (R91). -/
def encode (i : Instr) : Word := opcode i ++ argument i

/-- What `decode` reads from the table word `w` of `nbits` bits; a bit the table does not give is 0. A command word is
presented whole on its port (R85), so there is no byte order to settle. -/
def decodeTableWord (nbits w : Nat) : Option Instr :=
  match decode (BitVec.ofNat 16 (w % 2 ^ nbits)) with
  | .ok i => some i
  | .error _ => none

end Sys2Proof
end

