-- ==== Sys2Proof/Config.lean ====
section
/-!
DEFINITION. What an instance of the block fixes (00_scope R7), and the free values of the model. A parameter the source
gives a value is that value at reset; one it leaves open is an opaque constant here, so that no proof can know it.
Parameters are carried in the state (`Machine.State.params`), which no step writes: log 1. Which free value stands for what
is in log 2 (parameters), 3 (AUX), 4 (clock), 5 (order of the two drives), 26 (the mode of a code that is no mode).
-/

namespace Sys2Proof

/-- The frequency family of a model descriptor (43_aux_functions R164). -/
inductive Family where
  | f230
  | f400
  | f900
  deriving DecidableEq, Repr

/-- The parameters of R7 that an instance fixes and no operation writes (R179). -/
structure Params where
  /-- HAS_M0: mode-select line A is wired. -/
  hasM0 : Bool
  /-- HAS_M1: mode-select line B is wired. -/
  hasM1 : Bool
  /-- HAS_AUX: the busy line is wired. -/
  hasAux : Bool
  /-- TIMEOUT_MS: the bound of the busy wait. -/
  timeoutMs : Nat
  /-- FALLBACK_MS: the fixed wait when no busy line is wired. -/
  fallbackMs : Nat
  /-- SETTLE_MS: the fixed short wait before and after the lines change. -/
  settleMs : Nat
  /-- CLK_MOD: the modulus of the millisecond clock. -/
  clkMod : Nat
  /-- OPC_READ. -/
  opcRead : Byte
  /-- OPC_WRITE_PERSIST. -/
  opcWritePersist : Byte
  /-- OPC_WRITE_VOLATILE. -/
  opcWriteVolatile : Byte
  /-- OPC_WRONG_FORMAT: the device's "wrong format" sentinel in byte 0. -/
  opcWrongFormat : Byte
  /-- REG_CFG_BASE. -/
  regCfgBase : Byte
  /-- REG_PID_BASE. -/
  regPidBase : Byte
  /-- BASE_FREQ(230). -/
  baseFreq230 : Nat
  /-- BASE_FREQ(400). -/
  baseFreq400 : Nat
  /-- BASE_FREQ(900). -/
  baseFreq900 : Nat
  deriving DecidableEq, Repr

namespace Config

/-- LEN_CFG (R7). -/
def lenCfg : Nat := 8

/-- LEN_PID (R7). -/
def lenPid : Nat := 3

/-- INFO_RX_LEN (R7): bytes the Transport Session reads back for module information. -/
def infoRxLen : Nat := 4

/-- MAX_PAYLOAD (R7): outside the block. -/
def maxPayload : Nat := 200

/-- Bytes of a configuration frame (R70). -/
def cfgFrameLen : Nat := 11

/-- Bytes of a module-information frame (R76). -/
def infoFrameLen : Nat := 6

/-- Capacity of BUF_IN (R27). -/
def bufInCapacity : Nat := 255

/-- Whether both mode-select lines are wired or both absent (the mixed case is no configuration, R137). Log 2. -/
opaque modeLinesWired : Bool

/-- HAS_AUX of the instance. Log 2. -/
opaque auxWired : Bool

/-- SETTLE_MS of the instance (open, R7). Log 2. -/
opaque settleMs : Nat

/-- How far CLK_MOD exceeds TIMEOUT_MS + 1 (CLK_MOD is open, with TIMEOUT_MS < CLK_MOD, R7). Log 2. -/
opaque clkModExcess : Nat

/-- OPC_READ of the instance (open, R7). Log 2. -/
opaque opcRead : Byte

/-- OPC_WRITE_PERSIST of the instance (open, R7). Log 2. -/
opaque opcWritePersist : Byte

/-- OPC_WRITE_VOLATILE of the instance (open, R7). Log 2. -/
opaque opcWriteVolatile : Byte

/-- Draw for OPC_WRONG_FORMAT (open, R7, but different from OPC_READ). Log 2. -/
opaque wrongFormatDraw : Byte

/-- REG_CFG_BASE of the instance (open, R7). Log 2. -/
opaque regCfgBase : Byte

/-- REG_PID_BASE of the instance (open, R7). Log 2. -/
opaque regPidBase : Byte

/-- BASE_FREQ(230) (open, R7). Log 2. -/
opaque baseFreq230 : Nat

/-- BASE_FREQ(900) (open, R7). Log 2. -/
opaque baseFreq900 : Nat

/-- The clock when the block is reset: "any value" (R36, R201). Log 4. -/
opaque clockAtReset : Nat

/-- The level the n-th draw finds on AUX when the state scripts none: any value in 0, 1 (R35, U5). Log 3. -/
opaque auxSample : Nat → Bool

/-- Milliseconds passed before the clock reading of the n-th draw when the state scripts none: any number (R36, U19).
Log 4. -/
opaque clockElapsed : Nat → Nat

/-- Whether the assertion of the n-th draw drives M0 before M1 when the state scripts no order: either (R136, U3). Log 5. -/
opaque driveM0First : Nat → Bool

/-- Which of the four modes a successful wait records for a TGT of 4 or more, a code for which `mode` is not stated (R131).
Log 26. -/
opaque unstatedMode : Byte → BitVec 2

/-- The parameters at reset: the values the source gives (TIMEOUT_MS 1000, FALLBACK_MS 100, BASE_FREQ(400) 410), every open
one a free value within the bounds of R7: HAS_M0 = HAS_M1, TIMEOUT_MS < CLK_MOD, OPC_WRONG_FORMAT ≠ OPC_READ. -/
def params : Params where
  hasM0 := modeLinesWired
  hasM1 := modeLinesWired
  hasAux := auxWired
  timeoutMs := 1000
  fallbackMs := 100
  settleMs := settleMs
  clkMod := 1000 + 1 + clkModExcess
  opcRead := opcRead
  opcWritePersist := opcWritePersist
  opcWriteVolatile := opcWriteVolatile
  opcWrongFormat := if wrongFormatDraw = opcRead then opcRead + 1 else wrongFormatDraw
  regCfgBase := regCfgBase
  regPidBase := regPidBase
  baseFreq230 := baseFreq230
  baseFreq400 := 410
  baseFreq900 := baseFreq900

end Config

end Sys2Proof
end

