-- ==== Sys2Proof/Machine/State.lean ====
section
/-!
DEFINITION. The state of the block as plain data: the registers and latches of 10_state R29 to R34, the ports of R23 to
R27 (operands the host presents, results an operation leaves), the parameters of the instance (R22), and the environment's
inputs (R35, R36) with the record of events they cause. `none` in a field is the spec's own value `none` (00_scope R11),
which is also the stated reset value (R37). The latches a phase reads stand in that phase, so that none of them can hold
`none` there: log 12.
-/

namespace Sys2Proof.Machine

/-- CUR_MODE's domain (R29): the device's four modes and Unknown. -/
inductive Mode where
  | unknown
  | normal
  | worTx
  | powerSaving
  | configuration
  deriving DecidableEq, Repr

/-- Which operation a wait phase belongs to: "a model carries it as part of the phase" (R150). -/
inductive Origin where
  | setMode
  | waitReady
  deriving DecidableEq, Repr

/-- The sequencer's phases (R30). -/
inductive Phase where
  | idle
  | settle1
  | assert
  | settle2
  | waitAux (o : Origin)
  | waitFallback (o : Origin)
  deriving DecidableEq, Repr

/-- The closed taxonomy of outcomes, in the spec's order (R170). -/
inductive Status where
  | success
  | unknown
  | notSupported
  | notImplemented
  | notInitialized
  | invalidParameter
  | dataSizeNotMatch
  | bufferTooSmall
  | timeout
  | hardwareError
  | headNotRecognized
  | noResponseFromDevice
  | wrongUartConfig
  | packetTooBig
  | jsonParseError
  | deinitFailed
  | wrongFormat
  deriving DecidableEq, Repr

/-- The latches of the bounded wait (R32), written together on entry to WAIT_AUX (R144). -/
structure Latches where
  t0 : Nat
  deadline : Nat
  ovf : Bool
  deriving DecidableEq, Repr

/-- The operation a wait phase belongs to, with TGT: a byte in a SET_MODE, whatever the last SET_MODE left in a WAIT_READY,
which does not write it (R31, R148). -/
inductive Waiter where
  | setMode (tgt : Byte)
  | waitReady (tgt : Option Byte)
  deriving DecidableEq, Repr

/-- SEQ (R30) together with TGT (R31) and the wait latches (R32). Each phase holds a value for the latches it reads: TGT from
the acceptance of a SET_MODE to its end, T0, DEADLINE and OVF in WAIT_AUX. Elsewhere they hold their last value, or the `none`
of reset (R37). -/
inductive Sequencer where
  | idle (tgt : Option Byte) (latches : Option Latches)
  | settle1 (tgt : Byte) (latches : Option Latches)
  | assert (tgt : Byte) (latches : Option Latches)
  | settle2 (tgt : Byte) (latches : Option Latches)
  | waitAux (w : Waiter) (latches : Latches)
  | waitFallback (w : Waiter) (latches : Option Latches)
  deriving DecidableEq, Repr

/-- The two mode-select lines: line A is M0, line B is M1 (R12). -/
inductive Line where
  | m0
  | m1
  deriving DecidableEq, Repr

/-- What the block does on its pins and clock, as the traces of 95_test_vectors section 2.4 write it. -/
inductive Event where
  | hold (ms : Nat)
  | drive (l : Line) (level : Bool)
  | sample (level : Bool)
  | clock (reading : Nat)
  deriving DecidableEq, Repr

/-- Record HDR as an operand of the encoders (R23): naturals, of any width (R7, D2). -/
structure HdrOperand where
  cmd : Nat
  addr : Nat
  len : Nat
  deriving DecidableEq, Repr

/-- Record CFG as an operand of ENC_CFG (R24). -/
structure CfgOperand where
  addh : Nat
  addl : Nat
  airRate : Nat
  parity : Nat
  baud : Nat
  power : Nat
  rssiNoise : Nat
  subpkt : Nat
  chan : Nat
  wor : Nat
  lbt : Nat
  fixed : Nat
  rssiEn : Nat
  cryptH : Nat
  cryptL : Nat
  deriving DecidableEq, Repr

/-- Record INFO as an operand of ENC_INFO (R25). -/
structure InfoOperand where
  model : Nat
  version : Nat
  features : Nat
  deriving DecidableEq, Repr

/-- Record HDR as a decode reports it (R23), and the operands GOT and EXP of HDR_CHK (R160): three bytes. -/
structure Hdr where
  cmd : Byte
  addr : Byte
  len : Byte
  deriving DecidableEq, Repr

/-- Record CFG as DEC_CFG reports it, each field of exactly its width (R24). -/
structure Cfg where
  addh : Byte
  addl : Byte
  airRate : BitVec 3
  parity : BitVec 2
  baud : BitVec 3
  power : BitVec 2
  rssiNoise : BitVec 1
  subpkt : BitVec 2
  chan : Byte
  wor : BitVec 3
  lbt : BitVec 1
  fixed : BitVec 1
  rssiEn : BitVec 1
  cryptH : Byte
  cryptL : Byte
  deriving DecidableEq, Repr

/-- Record INFO as DEC_INFO reports it (R25). -/
structure Info where
  model : Byte
  version : Byte
  features : Byte
  deriving DecidableEq, Repr

/-- The bytes of a buffer by index, in canonical form: indices strictly rising, no byte listed that an unlisted index
reads as (`Memory.wf`, Machine/Ops.lean). -/
abbrev Memory := List Host.Cell

/-- The operand ports (R85): the host drives them, no operation writes them. -/
structure Ports where
  /-- HDR, operand of ENC_CFG and ENC_INFO. -/
  hdr : HdrOperand
  /-- CFG, operand of ENC_CFG. -/
  cfg : CfgOperand
  /-- INFO, operand of ENC_INFO. -/
  info : InfoOperand
  /-- BUF_IN (R27), operand of DEC_CFG and DEC_INFO. -/
  bufIn : Memory
  /-- GOT, operand of HDR_CHK. -/
  got : Hdr
  /-- EXP, operand of HDR_CHK. -/
  expected : Hdr
  /-- BASE, operand of CHAN_FREQ. -/
  base : Nat
  /-- CHAN, operand of CHAN_FREQ. -/
  chan : Nat
  deriving DecidableEq, Repr

/-- The result ports but STATUS (R26, R27, R163). -/
structure Results where
  hdr : Option Hdr
  cfg : Option Cfg
  info : Option Info
  /-- BUF_OUT, indices 0 to 10 (R27). -/
  bufOut : Vector (Option Byte) 11
  /-- BUF_OUT_LEN (R27). -/
  bufOutLen : Option Nat
  freq : Option Nat
  deriving DecidableEq, Repr

/-- The machine. -/
structure State where
  /-- The parameters of the instance (R7, R22); no step writes them. -/
  params : Params
  /-- The command word the host presents and the block has not yet accepted (R85). -/
  cmd : Option Word
  ports : Ports
  results : Results
  /-- STATUS (R34). -/
  status : Option Status
  /-- CUR_MODE (R29). -/
  curMode : Mode
  /-- SEQ, TGT, T0, DEADLINE, OVF (R30 to R32): `State.seq`, `State.tgt`, `State.latches`. -/
  sequencer : Sequencer
  /-- The level last driven on line A (R33). -/
  m0 : Option Bool
  /-- The level last driven on line B (R33). -/
  m1 : Option Bool
  /-- The last reading of the clock (R36). -/
  clock : Nat
  /-- Levels the next samples of AUX find (log 3). -/
  auxIn : List Bool
  /-- Milliseconds that pass before each of the next clock readings (log 4). -/
  elapsedIn : List Nat
  /-- For each of the next assertions, whether M0 is driven first (log 5). -/
  orderIn : List Bool
  /-- How many environment draws have been taken (log 3). -/
  draws : Nat
  /-- Pin and clock events so far, oldest first (log 7). -/
  events : List Event
  deriving DecidableEq, Repr

/-- Whose wait it is. -/
def Waiter.origin : Waiter → Origin
  | .setMode _ => .setMode
  | .waitReady _ => .waitReady

/-- TGT during a wait. -/
def Waiter.tgt : Waiter → Option Byte
  | .setMode t => some t
  | .waitReady t => t

/-- The phase alone. -/
def Sequencer.phase : Sequencer → Phase
  | .idle _ _ => .idle
  | .settle1 _ _ => .settle1
  | .assert _ _ => .assert
  | .settle2 _ _ => .settle2
  | .waitAux w _ => .waitAux w.origin
  | .waitFallback w _ => .waitFallback w.origin

/-- TGT in any phase. -/
def Sequencer.tgt : Sequencer → Option Byte
  | .idle t _ => t
  | .settle1 t _ | .assert t _ | .settle2 t _ => some t
  | .waitAux w _ | .waitFallback w _ => w.tgt

/-- T0, DEADLINE and OVF in any phase. -/
def Sequencer.latches : Sequencer → Option Latches
  | .idle _ l | .settle1 _ l | .assert _ l | .settle2 _ l | .waitFallback _ l => l
  | .waitAux _ l => some l

/-- SEQ (R30). -/
def State.seq (s : State) : Phase := s.sequencer.phase

/-- TGT (R31). -/
def State.tgt (s : State) : Option Byte := s.sequencer.tgt

/-- T0, DEADLINE, OVF (R32). -/
def State.latches (s : State) : Option Latches := s.sequencer.latches

/-- There is none. The block has no traps: a failure is a status, and the sequencer goes on (R175). The one fault the spec
knows is a read of `none` (R11), and no step takes a value from a field that can hold `none` (log 12). -/
inductive Fault where
  deriving DecidableEq, Repr

/-- What the model refuses, each because the spec refuses it. -/
inductive Refusal where
  /-- An operation that has no meaning yet; raised by no arm of `exec` any more. Safe. -/
  | notModelled (mnemonic : String)
  /-- A command given while SEQ is not IDLE: "A model has no step for a command presented while SEQ is not IDLE" (R60).
  Raised by every operation through `whenIdle`, never by `step`; safe. -/
  | sequencerBusy
  /-- Exactly one mode-select line is wired: "This spec refuses it" (R137). Raised by ASSERT of SET_MODE; safe. -/
  | oneModeLineWired
  /-- CHAN above 255 "is outside the function's domain; a model refuses it" (R163). Raised by CHAN_FREQ; safe. -/
  | channelOutOfDomain
  deriving DecidableEq, Repr

/-- The operand ports at reset: 0 on every port the spec gives no value (log 10), nothing listed in BUF_IN (log 11). -/
def Ports.reset : Ports where
  hdr := ⟨0, 0, 0⟩
  cfg := ⟨0, 0, 0, 0, 0, 0, 0, 0, 0, 0, 0, 0, 0, 0, 0⟩
  info := ⟨0, 0, 0⟩
  bufIn := []
  got := ⟨0, 0, 0⟩
  expected := ⟨0, 0, 0⟩
  base := 0
  chan := 0

/-- The result ports at reset: "every result field and BUF_OUT = none" (R37). -/
def Results.reset : Results where
  hdr := none
  cfg := none
  info := none
  bufOut := Vector.replicate 11 none
  bufOutLen := none
  freq := none

/-- The machine right after reset, "the moment before any operation has been issued" (R200, R37). -/
def State.reset : State where
  params := Config.params
  cmd := none
  ports := Ports.reset
  results := Results.reset
  status := none
  curMode := .unknown
  sequencer := .idle none none
  m0 := none
  m1 := none
  clock := Config.clockAtReset % Config.params.clkMod
  auxIn := []
  elapsedIn := []
  orderIn := []
  draws := 0
  events := []

end Sys2Proof.Machine
end

