-- ==== Sys2Proof/Machine/Ops.lean ====
section
/-!
DEFINITION. The named operations over the ports, registers and pins: the pseudocode primitives of 00_scope R10 (`BufRead`,
`drive`, `sample`, `now`, `hold`, `return S`), acceptance of a command (20_memory R60), and what the host reads of CUR_MODE
(10_state R29). `returnStatus` is the block's only form of an exception: "There is no trap entry" (60_exceptions R175).
-/

namespace Sys2Proof.Machine

/-- The three outcomes of a step of this machine. -/
abbrev Outcome := Host.Outcome State Fault Refusal

/-! BUF_IN: one byte per index, indices 0 to 254 (R27, R50). -/

/-- The byte at an index; an index not listed reads 0 (log 11). -/
def Memory.read : Memory → Nat → Byte
  | [], _ => 0
  | (a, b) :: rest, i => if i = a then b else Memory.read rest i

/-- Put a byte at an index, keeping the canonical form. -/
def Memory.insert : Memory → Nat → Byte → Memory
  | [], i, v => if v = 0 then [] else [(i, v)]
  | (a, b) :: rest, i, v =>
    if i < a then (if v = 0 then (a, b) :: rest else (i, v) :: (a, b) :: rest)
    else if i = a then (if v = 0 then rest else (a, v) :: rest)
    else (a, b) :: Memory.insert rest i v

/-- The host puts a byte on BUF_IN; the buffer has no index 255 or above (R27), so nothing is put there. -/
def Memory.write (m : Memory) (i : Nat) (v : Byte) : Memory :=
  if i < Config.bufInCapacity then Memory.insert m i v else m

/-- The host presents a frame from index `i` on. -/
def Memory.presentFrom (m : Memory) (i : Nat) : List Byte → Memory
  | [] => m
  | v :: vs => Memory.presentFrom (Memory.write m i v) (i + 1) vs

/-- Indices from `lo` on, strictly rising, all within BUF_IN, no byte 0 listed. -/
def Memory.risingFrom : Nat → Memory → Bool
  | _, [] => true
  | lo, (a, b) :: rest =>
    decide (lo ≤ a) && decide (a < Config.bufInCapacity) && decide (b ≠ 0) && Memory.risingFrom (a + 1) rest

/-- The canonical form of a buffer. -/
def Memory.wf (m : Memory) : Bool := Memory.risingFrom 0 m

/-- `BufRead(i)` (R10): byte `i` of the frame on BUF_IN. -/
def bufRead (s : State) (i : Nat) : Byte := Memory.read s.ports.bufIn i

/-! Ending an operation, accepting one. -/

/-- `return S` (R10, R34, R175): STATUS is written and SEQ is IDLE; TGT and the wait latches stay; nothing is saved, control
goes nowhere. -/
def returnStatus (r : Status) (s : State) : State :=
  { s with status := some r, sequencer := .idle s.tgt s.latches }

/-- A command is accepted only when SEQ is IDLE (R60). -/
def whenIdle (s : State) (o : Outcome) : Outcome :=
  if s.seq = .idle then o else .refused .sequencerBusy

/-- The step that accepts a command takes it off the command port (R58, R85). -/
def takeCommand (s : State) : State := { s with cmd := none }

/-- An OP outside the map: NotSupported at once, no other state changed (R87). -/
def rejectCommand (s : State) : Outcome := .next (returnStatus .notSupported s)

/-! Pins and clock. -/

/-- Record an event. -/
def logEvent (e : Event) (s : State) : State := { s with events := s.events ++ [e] }

/-- `hold(d)` (R133): one step, no pin event, no register changed; it has no duration in the model (log 6). -/
def hold (d : Nat) (s : State) : State := logEvent (.hold d) s

/-- `drive(L, v)` (R10, R33). -/
def drive (l : Line) (level : Bool) (s : State) : State :=
  match l with
  | .m0 => logEvent (.drive .m0 level) { s with m0 := some level }
  | .m1 => logEvent (.drive .m1 level) { s with m1 := some level }

/-- The level the next `sample(AUX)` finds (R35): the scripted one, or a free value (log 3). -/
def auxLevel (s : State) : Bool := s.auxIn.headD (Config.auxSample s.draws)

/-- The state after `sample(AUX)`: no side effect on the block (R56); one draw of the environment is used. -/
def afterSample (s : State) : State :=
  { s with
    auxIn := s.auxIn.tail
    draws := s.draws + 1
    events := s.events ++ [.sample (auxLevel s)] }

/-- The reading the next `now()` gives (R36): some number of milliseconds after the last one, modulo CLK_MOD (log 4). -/
def clockReading (s : State) : Nat :=
  (s.clock + s.elapsedIn.headD (Config.clockElapsed s.draws)) % s.params.clkMod

/-- The state after `now()`: the clock has moved on, one draw of the environment is used. -/
def afterReading (s : State) : State :=
  { s with
    clock := clockReading s
    elapsedIn := s.elapsedIn.tail
    draws := s.draws + 1
    events := s.events ++ [.clock (clockReading s)] }

/-- Whether the next assertion drives M0 before M1: the source does not order them (R136; log 5). -/
def m0DrivenFirst (s : State) : Bool := s.orderIn.headD (Config.driveM0First s.draws)

/-- Both lines driven, as two pin events in the order drawn (R136). -/
def drivePair (v0 v1 : Bool) (s : State) : State :=
  let s' := { s with orderIn := s.orderIn.tail, draws := s.draws + 1 }
  if m0DrivenFirst s then drive .m1 v1 (drive .m0 v0 s') else drive .m0 v0 (drive .m1 v1 s')

/-! What the host reads (STATUS as a code: `hostReadsStatus`, Machine/Flags.lean). -/

/-- CUR_MODE as a port (R29). -/
def modePort : Mode → BitVec 3
  | .normal => 0
  | .worTx => 1
  | .powerSaving => 2
  | .configuration => 3
  | .unknown => 7

/-- CUR_MODE is readable by the host while the sequencer is idle (R29). -/
def hostReadsMode (s : State) : Option (BitVec 3) :=
  if s.seq = .idle then some (modePort s.curMode) else none

end Sys2Proof.Machine
end

