-- ==== Sys2Proof/Machine/Operands.lean ====
section
/-!
DEFINITION. Every operand form: bit fields cut from a byte and put into one (30_encoding R82, R83), the two frames packed and
unpacked (40_config_codec R101, R105; 41_info_codec R121, R123), and the target code of SET_MODE (30_encoding R80, R81).
-/

namespace Sys2Proof.Machine

/-- Extraction (R82): bits `lo` to `lo + w - 1` of a frame byte, zero-extended to nothing wider than the field. -/
def extractField (b : Byte) (lo w : Nat) : BitVec w := b.extractLsb' lo w

/-- Insertion (R83): an operand masked to `w` bits, shifted to low bit `lo`. -/
def insertField (v w lo : Nat) : Nat := (v % 2 ^ w) <<< lo

/-- A whole-byte operand "reduced into a valid byte range by modulo 256" (R83, R101). -/
def byteOf (v : Nat) : Byte := BitVec.ofNat 8 v

/-! The configuration frame. -/

/-- Byte 5, SPEED (R71). -/
def packSpeed (c : CfgOperand) : Byte :=
  byteOf (insertField c.baud 3 5 ||| insertField c.parity 2 3 ||| insertField c.airRate 3 0)

/-- Byte 6, OPTION (R72); bits 4 to 2 carry no field and are 0 (R74). -/
def packOption (c : CfgOperand) : Byte :=
  byteOf (insertField c.subpkt 2 6 ||| insertField c.rssiNoise 1 5 ||| insertField c.power 2 0)

/-- Byte 8, TRANS_MODE (R73); bits 5 and 3 carry no field and are 0 (R74). -/
def packTransMode (c : CfgOperand) : Byte :=
  byteOf (insertField c.rssiEn 1 7 ||| insertField c.fixed 1 6 ||| insertField c.lbt 1 4 ||| insertField c.wor 3 0)

/-- The 11 bytes of ENC_CFG (R70, R101). -/
def packCfg (h : HdrOperand) (c : CfgOperand) : Vector (Option Byte) 11 :=
  #v[some (byteOf h.cmd), some (byteOf h.addr), some (byteOf h.len), some (byteOf c.addh), some (byteOf c.addl),
    some (packSpeed c), some (packOption c), some (byteOf c.chan), some (packTransMode c), some (byteOf c.cryptH),
    some (byteOf c.cryptL)]

/-- The header bytes of a frame on BUF_IN (R105, R123). -/
def unpackHdr (s : State) : Hdr where
  cmd := bufRead s 0
  addr := bufRead s 1
  len := bufRead s 2

/-- The fields of a configuration frame on BUF_IN (R105); bits with no field are dropped (R74, R107). -/
def unpackCfg (s : State) : Cfg where
  addh := bufRead s 3
  addl := bufRead s 4
  airRate := extractField (bufRead s 5) 0 3
  parity := extractField (bufRead s 5) 3 2
  baud := extractField (bufRead s 5) 5 3
  power := extractField (bufRead s 6) 0 2
  rssiNoise := extractField (bufRead s 6) 5 1
  subpkt := extractField (bufRead s 6) 6 2
  chan := bufRead s 7
  wor := extractField (bufRead s 8) 0 3
  lbt := extractField (bufRead s 8) 4 1
  fixed := extractField (bufRead s 8) 6 1
  rssiEn := extractField (bufRead s 8) 7 1
  cryptH := bufRead s 9
  cryptL := bufRead s 10

/-! The module-information frame. -/

/-- The bytes of ENC_INFO (R76, R121); BUF_OUT[6..10] are `none` (R120). -/
def packInfo (h : HdrOperand) (i : InfoOperand) : Vector (Option Byte) 11 :=
  #v[some (byteOf h.cmd), some (byteOf h.addr), some (byteOf h.len), some (byteOf i.model), some (byteOf i.version),
    some (byteOf i.features), none, none, none, none, none]

/-- The fields of a module-information frame on BUF_IN (R123). -/
def unpackInfo (s : State) : Info where
  model := bufRead s 3
  version := bufRead s 4
  features := bufRead s 5

/-! A decoded record presented again as an operand: each field is the same number. -/

/-- HDR results as an HDR operand. -/
def Hdr.toOperand (h : Hdr) : HdrOperand := ⟨h.cmd.toNat, h.addr.toNat, h.len.toNat⟩

/-- CFG results as a CFG operand. -/
def Cfg.toOperand (c : Cfg) : CfgOperand where
  addh := c.addh.toNat
  addl := c.addl.toNat
  airRate := c.airRate.toNat
  parity := c.parity.toNat
  baud := c.baud.toNat
  power := c.power.toNat
  rssiNoise := c.rssiNoise.toNat
  subpkt := c.subpkt.toNat
  chan := c.chan.toNat
  wor := c.wor.toNat
  lbt := c.lbt.toNat
  fixed := c.fixed.toNat
  rssiEn := c.rssiEn.toNat
  cryptH := c.cryptH.toNat
  cryptL := c.cryptL.toNat

/-- INFO results as an INFO operand. -/
def Info.toOperand (i : Info) : InfoOperand := ⟨i.model.toNat, i.version.toNat, i.features.toNat⟩

/-! The target code of SET_MODE. -/

/-- `mode(t)` (R131); codes 4 to 255 are "not one of the four known states" (R81, R88). -/
def modeOf (t : Byte) : Option Mode :=
  match t.toNat with
  | 0 => some .normal
  | 1 => some .worTx
  | 2 => some .powerSaving
  | 3 => some .configuration
  | _ => none

/-- The mode of two line levels (R80): each of the four patterns is a mode. -/
def modeOfLines (code : BitVec 2) : Mode :=
  match code.toNat with
  | 0 => .normal
  | 1 => .worTx
  | 2 => .powerSaving
  | _ => .configuration

/-- What step 6 records for a latched target (R131, R140): `mode(t)`; for a code of 4 or more, which the check of R135 lets
no run carry so far, `mode` is not stated and the mode is a free value (log 26). -/
def recordedMode (t : Byte) : Mode :=
  match modeOf t with
  | some m => m
  | none => modeOfLines (Config.unstatedMode t)

/-- `t[0]`, the level of M0 (R81). -/
def targetM0 (t : Byte) : Bool := t.getLsbD 0

/-- `t[1]`, the level of M1 (R81). -/
def targetM1 (t : Byte) : Bool := t.getLsbD 1

/-- The target code of a mode; Unknown is not a target (R142). -/
def targetCode : Mode → Option Byte
  | .normal => some 0
  | .worTx => some 1
  | .powerSaving => some 2
  | .configuration => some 3
  | .unknown => none

end Sys2Proof.Machine
end

