-- ==== Sys2Proof/Machine/Flags.lean ====
section
/-!
DEFINITION. The block's condition codes: the OVF and DEADLINE latches and the expiry predicate of the bounded wait
(42_mode_control R144, R145), the length tests (40_config_codec R104, 41_info_codec R123), the header check
(43_aux_functions R161), and the codes of the STATUS port (60_exceptions R170).
-/

namespace Sys2Proof.Machine

/-- The latches on entry to WAIT_AUX (R144): the sum is a natural number; one that does not fit the clock's range sets OVF
and makes the deadline the zero point. -/
def latchWait (timeoutMs clkMod t0 : Nat) : Latches :=
  if clkMod ≤ t0 + timeoutMs then { t0 := t0, deadline := 0, ovf := true }
  else { t0 := t0, deadline := t0 + timeoutMs, ovf := false }

/-- `expired(c)` (R145). -/
def expired (l : Latches) (c : Nat) : Bool :=
  match l.ovf with
  | false => decide (l.deadline ≤ c) || decide (c < l.t0)
  | true => decide (c < l.t0)

/-- The exact-length rule (R54): the status of a decode of `n` presented bytes. -/
def lengthStatus (n frameLen : Nat) : Status :=
  if n = frameLen then .success else .dataSizeNotMatch

/-- HDR_CHK (R161): the sentinel test comes first. -/
def headerStatus (wrongFormat : Byte) (got expected : Hdr) : Status :=
  if got.cmd = wrongFormat then .wrongFormat
  else if got = expected then .success
  else .headNotRecognized

/-- The status as an 8-bit code on the result port (R170). -/
def statusCode : Status → Byte
  | .success => 1
  | .unknown => 2
  | .notSupported => 3
  | .notImplemented => 4
  | .notInitialized => 5
  | .invalidParameter => 6
  | .dataSizeNotMatch => 7
  | .bufferTooSmall => 8
  | .timeout => 9
  | .hardwareError => 10
  | .headNotRecognized => 11
  | .noResponseFromDevice => 12
  | .wrongUartConfig => 13
  | .packetTooBig => 14
  | .jsonParseError => 15
  | .deinitFailed => 16
  | .wrongFormat => 17

/-- The STATUS port (R34, R170); nothing to read while no operation has ended since reset. -/
def hostReadsStatus (s : State) : Option Byte := s.status.map statusCode

end Sys2Proof.Machine
end

