-- ==== Sys2Proof/Machine/Auxiliary.lean ====
section
/-!
DEFINITION. HDR_CHK and CHAN_FREQ (43_aux_functions): pure functions of their operand ports.
-/

namespace Sys2Proof.Machine

/-- HDR_CHK (R160): STATUS is its only result. -/
def execHdrChk (_arg : Byte) (s : State) : Outcome :=
  whenIdle s <| .next <| returnStatus (headerStatus s.params.opcWrongFormat s.ports.got s.ports.expected) s

/-- CHAN_FREQ (R163): FREQ = BASE + CHAN, "a natural number, no wrap and no saturation". -/
def execChanFreq (_arg : Byte) (s : State) : Outcome :=
  whenIdle s <|
    if s.ports.chan < 256 then
      .next <| returnStatus .success
        { s with results := { s.results with freq := some (s.ports.base + s.ports.chan) } }
    else .refused .channelOutOfDomain

end Sys2Proof.Machine
end

