-- ==== Sys2Proof/Machine/ConfigCodec.lean ====
section
/-!
DEFINITION. ENC_CFG and DEC_CFG (40_config_codec). Pure functions of their operand ports (10_state R20), done in one
indivisible step (20_memory R55); a result port an operation does not produce keeps what it held (log 13).
-/

namespace Sys2Proof.Machine

/-- ENC_CFG (R100): always Success. -/
def execEncCfg (_arg : Byte) (s : State) : Outcome :=
  whenIdle s <| .next <| returnStatus .success
    { s with results := { s.results with
        bufOut := packCfg s.ports.hdr s.ports.cfg
        bufOutLen := some Config.cfgFrameLen } }

/-- DEC_CFG (R104): any length but 11 leaves every result field `none` and does not read BUF_IN (R106). -/
def execDecCfg (n : Nat) (s : State) : Outcome :=
  whenIdle s <| .next <| returnStatus (lengthStatus n Config.cfgFrameLen)
    { s with results := { s.results with
        hdr := if n = Config.cfgFrameLen then some (unpackHdr s) else none
        cfg := if n = Config.cfgFrameLen then some (unpackCfg s) else none } }

end Sys2Proof.Machine
end

