-- ==== Sys2Proof/Machine/InfoCodec.lean ====
section
/-!
DEFINITION. ENC_INFO and DEC_INFO (41_info_codec): "flat byte copy, no bit packing".
-/

namespace Sys2Proof.Machine

/-- ENC_INFO (R120): always Success. -/
def execEncInfo (_arg : Byte) (s : State) : Outcome :=
  whenIdle s <| .next <| returnStatus .success
    { s with results := { s.results with
        bufOut := packInfo s.ports.hdr s.ports.info
        bufOutLen := some Config.infoFrameLen } }

/-- DEC_INFO (R123): any length but 6 leaves every result field `none` and does not read BUF_IN (R124). -/
def execDecInfo (n : Nat) (s : State) : Outcome :=
  whenIdle s <| .next <| returnStatus (lengthStatus n Config.infoFrameLen)
    { s with results := { s.results with
        hdr := if n = Config.infoFrameLen then some (unpackHdr s) else none
        info := if n = Config.infoFrameLen then some (unpackInfo s) else none } }

end Sys2Proof.Machine
end

