-- ==== Sys2Proof/Machine/ModeControl.lean ====
section
/-!
DEFINITION. SET_MODE and WAIT_READY (42_mode_control): acceptance, then one step per row of the transition table R150.
`advance` is the step of a busy sequencer; each phase has a function of its own, given the latches the phase holds.
-/

namespace Sys2Proof.Machine

/-- SET_MODE (R130, R131): TGT is latched and the settle delay begins. -/
def execSetMode (t : Byte) (s : State) : Outcome :=
  whenIdle s <| .next { s with sequencer := .settle1 t s.latches }

/-- Entry to `Wait()` (R139): with a busy line T0 is read and the latches written (R144), without one nothing is. -/
def enterWait (w : Waiter) (s : State) : State :=
  match s.params.hasAux with
  | true =>
    { afterReading s with
      sequencer := .waitAux w (latchWait s.params.timeoutMs s.params.clkMod (clockReading s)) }
  | false => { s with sequencer := .waitFallback w s.latches }

/-- WAIT_READY (R148): the wait alone; TGT is not written. -/
def execWaitReady (_arg : Byte) (s : State) : Outcome :=
  whenIdle s <| .next (enterWait (.waitReady s.tgt) s)

/-- Step 1 of SET_MODE done (R132). -/
def endSettle1 (t : Byte) (s : State) : State :=
  { hold s.params.settleMs s with sequencer := .assert t s.latches }

/-- Steps 2 and 3 of SET_MODE (R134, R135, R136): the target is checked in every wiring, then the lines are driven if they
are wired. Exactly one line wired is refused (R137). -/
def assertTarget (t : Byte) (s : State) : Outcome :=
  if modeOf t = none then .next (returnStatus .invalidParameter s)
  else
    match s.params.hasM0, s.params.hasM1 with
    | true, true => .next { drivePair (targetM0 t) (targetM1 t) s with sequencer := .settle2 t s.latches }
    | false, false => .next { s with sequencer := .settle2 t s.latches }
    | _, _ => .refused .oneModeLineWired

/-- Step 4 of SET_MODE done, step 5 entered (R138, R139). -/
def endSettle2 (t : Byte) (s : State) : State := enterWait (.setMode t) (hold s.params.settleMs s)

/-- `Wait()` returned Success (R140, R148): a SET_MODE records its target in CUR_MODE, and that is its last effect before
STATUS. -/
def waitSucceeded (w : Waiter) (s : State) : State :=
  match w with
  | .waitReady _ => returnStatus .success s
  | .setMode t => returnStatus .success { s with curMode := recordedMode t }

/-- One poll (R146): the line first; the clock only if the line was 0. -/
def pollAux (w : Waiter) (l : Latches) (s : State) : State :=
  if auxLevel s then waitSucceeded w (afterSample s)
  else if expired l (clockReading (afterSample s)) then returnStatus .timeout (afterReading (afterSample s))
  else afterReading (afterSample s)

/-- The fallback wait done (R147): readiness is assumed. -/
def endFallback (w : Waiter) (s : State) : State := waitSucceeded w (hold s.params.fallbackMs s)

/-- The step of the sequencer in its phase (R150); an idle sequencer stays as it is. -/
def advance (s : State) : Outcome :=
  match s.sequencer with
  | .idle _ _ => .next s
  | .settle1 t _ => .next (endSettle1 t s)
  | .assert t _ => assertTarget t s
  | .settle2 t _ => .next (endSettle2 t s)
  | .waitAux w l => .next (pollAux w l s)
  | .waitFallback w _ => .next (endFallback w s)

end Sys2Proof.Machine
end

