-- ==== Sys2Proof/Machine/Dispatch.lean ====
section
/-!
DEFINITION. One arm per operation of the opcode map (30_encoding R86), each a call of its meaning.
-/

namespace Sys2Proof.Machine

def exec (i : Instr) (s : State) : Host.Outcome State Fault Refusal :=
  match i with
  | .encCfg arg => Sys2Proof.Machine.execEncCfg arg s
  | .decCfg n => Sys2Proof.Machine.execDecCfg n s
  | .encInfo arg => Sys2Proof.Machine.execEncInfo arg s
  | .decInfo n => Sys2Proof.Machine.execDecInfo n s
  | .setMode t => Sys2Proof.Machine.execSetMode t s
  | .waitReady arg => Sys2Proof.Machine.execWaitReady arg s
  | .hdrChk arg => Sys2Proof.Machine.execHdrChk arg s
  | .chanFreq arg => Sys2Proof.Machine.execChanFreq arg s

end Sys2Proof.Machine
end

