-- ==== Sys2Proof/Machine/Step.lean ====
section
/-!
DEFINITION. One step of the block (42_mode_control R150): an idle sequencer accepts the command presented, if there is one,
and waits for one otherwise (70_reset_and_hazards R200); a busy one takes the next transition of its phase and leaves any
command presented where it is (20_memory R60).
-/

namespace Sys2Proof.Machine

/-- The step of the machine. -/
def step (s : State) : Host.Outcome State Fault Refusal :=
  match s.seq with
  | .idle =>
    match s.cmd with
    | none => .next s
    | some w =>
      match decode w with
      | .ok i => exec i (takeCommand s)
      | .error _ => rejectCommand (takeCommand s)
  | _ => advance s

/-- The command word presented on the command port of an idle sequencer, so that the next step accepts it (log 8). -/
def State.withFetchWord (s : State) (nbits w : Nat) : State :=
  { s with cmd := some (BitVec.ofNat 16 (w % 2 ^ nbits)), sequencer := .idle s.tgt s.latches }

end Sys2Proof.Machine
end

