-- ==== Sys2Proof/Machine/Descriptor.lean ====
section
/-!
DEFINITION. The model descriptor (43_aux_functions R164, R165): the pattern `(230|400|900)(T|R|MM|M)(22|30)[SD]` matched
against a whole string, a list of characters here. It is a construction parameter, not state: it decides the base frequency
the host presents to CHAN_FREQ, and nothing else the block does (log 23).
-/

namespace Sys2Proof.Machine

/-- The series letters. -/
inductive Series where
  | t
  | r
  | mm
  | m
  deriving DecidableEq, Repr

/-- The power class. -/
inductive PowerClass where
  | dbm22
  | dbm30
  deriving DecidableEq, Repr

/-- The package letter: D discrete, S SMD. -/
inductive Package where
  | smd
  | discrete
  deriving DecidableEq, Repr

/-- An accepted descriptor. -/
structure Descriptor where
  family : Family
  series : Series
  power : PowerClass
  package : Package
  deriving DecidableEq, Repr

/-- Construction failed: InvalidModel is not in the status taxonomy of R170; no operation of the block returns it. Safe. -/
inductive ConstructionError where
  | invalidModel
  deriving DecidableEq, Repr

/-- `(230|400|900)`. -/
def matchFamily : List Char → Option (Family × List Char)
  | '2' :: '3' :: '0' :: rest => some (.f230, rest)
  | '4' :: '0' :: '0' :: rest => some (.f400, rest)
  | '9' :: '0' :: '0' :: rest => some (.f900, rest)
  | _ => none

/-- `(T|R|MM|M)`. -/
def matchSeries : List Char → Option (Series × List Char)
  | 'T' :: rest => some (.t, rest)
  | 'R' :: rest => some (.r, rest)
  | 'M' :: 'M' :: rest => some (.mm, rest)
  | 'M' :: rest => some (.m, rest)
  | _ => none

/-- `(22|30)`. -/
def matchPower : List Char → Option (PowerClass × List Char)
  | '2' :: '2' :: rest => some (.dbm22, rest)
  | '3' :: '0' :: rest => some (.dbm30, rest)
  | _ => none

/-- `[SD]`, and then the string ends. -/
def matchPackage : List Char → Option Package
  | ['S'] => some .smd
  | ['D'] => some .discrete
  | _ => none

/-- The construction check of R164. -/
def constructModel (text : List Char) : Except ConstructionError Descriptor :=
  let found := do
    let (family, afterFamily) ← matchFamily text
    let (series, afterSeries) ← matchSeries afterFamily
    let (power, afterPower) ← matchPower afterSeries
    let package ← matchPackage afterPower
    pure ({ family, series, power, package } : Descriptor)
  match found with
  | some d => .ok d
  | none => .error .invalidModel

/-- The string an accepted descriptor stands for. -/
def Descriptor.text (d : Descriptor) : List Char :=
  (match d.family with
    | .f230 => ['2', '3', '0']
    | .f400 => ['4', '0', '0']
    | .f900 => ['9', '0', '0']) ++
  (match d.series with
    | .t => ['T']
    | .r => ['R']
    | .mm => ['M', 'M']
    | .m => ['M']) ++
  (match d.power with
    | .dbm22 => ['2', '2']
    | .dbm30 => ['3', '0']) ++
  (match d.package with
    | .smd => ['S']
    | .discrete => ['D'])

/-- The base operating frequency the descriptor decides (R165, R7). -/
def baseFreq (p : Params) (d : Descriptor) : Nat :=
  match d.family with
  | .f230 => p.baseFreq230
  | .f400 => p.baseFreq400
  | .f900 => p.baseFreq900

end Sys2Proof.Machine
end

