-- ==== Sys2Proof/Machine/Protocol.lean ====
section
/-!
DEFINITION. What the host builds around the block, as far as the spec fixes it: command frames (30_encoding R78), payload
frames (R79), the register a frame byte carries (20_memory R51), the headers it expects (43_aux_functions R162), and the
pseudo-operations as sequences of the block's operations (30_encoding R92). None of them is an operation of the block.
-/

namespace Sys2Proof.Machine

/-- The command frame that reads the configuration (R78). -/
def readConfigFrame (p : Params) : List Byte := [p.opcRead, p.regCfgBase, byteOf Config.lenCfg]

/-- The command frame that reads the module information (R78). -/
def readInfoFrame (p : Params) : List Byte := [p.opcRead, p.regPidBase, byteOf Config.lenPid]

/-- The HDR operand of a configuration write (R78). -/
def writeConfigHdr (p : Params) (persist : Bool) : HdrOperand where
  cmd := (if persist then p.opcWritePersist else p.opcWriteVolatile).toNat
  addr := p.regCfgBase.toNat
  len := Config.lenCfg

/-- The header and the payload of an addressed frame (R79); a payload above MAX_PAYLOAD is not sent. -/
def fixedPayloadFrame (addh addl chan : Byte) (payload : List Byte) : Option (List Byte) :=
  if payload.length ≤ Config.maxPayload then some ([addh, addl, chan] ++ payload) else none

/-- A transparent frame is its payload (R79). -/
def transparentPayloadFrame (payload : List Byte) : Option (List Byte) :=
  if payload.length ≤ Config.maxPayload then some payload else none

/-- The device register that travels in byte `i` of a frame whose block starts at `base` (R51): bytes 0 to 2 are the header,
byte 3 + k is register base + k, a sum of natural numbers. -/
def registerInFrame (base : Byte) (frameLen i : Nat) : Option Nat :=
  if 3 ≤ i ∧ i < frameLen then some (base.toNat + (i - 3)) else none

/-- EXP after reading or writing the configuration (R162). -/
def expectedConfigHdr (p : Params) : Hdr := ⟨p.opcRead, p.regCfgBase, byteOf Config.lenCfg⟩

/-- EXP after reading the module information (R162). -/
def expectedInfoHdr (p : Params) : Hdr := ⟨p.opcRead, p.regPidBase, byteOf Config.lenPid⟩

/-- The pseudo-operations (R92); CFG_LEAVE carries the mode the host saved. -/
inductive Pseudo where
  | begin
  | cfgEnter
  | cfgLeave (prev : Mode)
  | sendWait
  deriving DecidableEq, Repr

/-- Their expansions (R92). CFG_LEAVE with a saved mode of Unknown cannot be formed: Unknown has no target code (R213). -/
def Pseudo.expand : Pseudo → Option (List Instr)
  | .begin => some [.setMode 0]
  | .cfgEnter => some [.setMode 3]
  | .cfgLeave prev => (targetCode prev).map fun t => [.setMode t]
  | .sendWait => some [.waitReady 0]

end Sys2Proof.Machine
end

