-- ==== Sys2Proof/Safety.lean ====
section
/-!
DEFINITION. What claims are stated in: the premises the spec puts on an instance (00_scope R7, 42_mode_control R137), which
operations are done in the step that issues them, and the invariant of the block. The invariant does NOT say that the lines
show the pattern of CUR_MODE: "A model must not assume" that (70_reset_and_hazards R207).
-/

namespace Sys2Proof

/-- The bounds of R7 and R137: both mode-select lines wired or both absent, TIMEOUT_MS < CLK_MOD, the sentinel different
from OPC_READ. -/
abbrev Params.ok (p : Params) : Prop :=
  p.hasM0 = p.hasM1 ∧ p.timeoutMs < p.clkMod ∧ p.opcWrongFormat ≠ p.opcRead

/-- The four codec operations (R4). -/
def Instr.isCodec : Instr → Bool
  | .encCfg _ | .decCfg _ | .encInfo _ | .decInfo _ => true
  | .setMode _ | .waitReady _ | .hdrChk _ | .chanFreq _ => false

/-- The operations that begin and end in one step (R150, D31): the codec and the auxiliary functions. -/
def Instr.isOneStep : Instr → Bool
  | .encCfg _ | .decCfg _ | .encInfo _ | .decInfo _ | .hdrChk _ | .chanFreq _ => true
  | .setMode _ | .waitReady _ => false

namespace Machine

/-- `k` steps of the machine. -/
def run (k : Nat) (s : State) : Outcome := Host.Core.run core k s

/-- The operation `i`, accepted in `s` with nothing else presented, returns in `u` after some number of steps. -/
def completes (i : Instr) (s u : State) : Prop :=
  s.cmd = none ∧ u.seq = .idle ∧ ∃ (s1 : State) (k : Nat), exec i s = .next s1 ∧ run k s1 = .next u

/-- The phases of a SET_MODE in progress. -/
def Phase.inSetMode : Phase → Bool
  | .settle1 | .assert | .settle2 | .waitAux .setMode | .waitFallback .setMode => true
  | .idle | .waitAux .waitReady | .waitFallback .waitReady => false

/-- The phases of a SET_MODE whose target has been found to be one of the four modes. -/
def Phase.afterAssert : Phase → Bool
  | .settle2 | .waitAux .setMode | .waitFallback .setMode => true
  | .idle | .settle1 | .assert | .waitAux .waitReady | .waitFallback .waitReady => false

/-- The statuses the block can return (R170, third column). -/
def Status.ofBlock : Status → Bool
  | .success | .notSupported | .invalidParameter | .dataSizeNotMatch | .timeout | .headNotRecognized | .wrongFormat => true
  | .unknown | .notImplemented | .notInitialized | .bufferTooSmall | .hardwareError | .noResponseFromDevice
  | .wrongUartConfig | .packetTooBig | .jsonParseError | .deinitFailed => false

/-- The invariant of the block: it holds at reset, and every step keeps it. -/
structure Inv (s : State) : Prop where
  /-- The instance is a configuration of the block. -/
  paramsOk : s.params.ok
  /-- BUF_IN is in canonical form. -/
  bufInWf : Memory.wf s.ports.bufIn = true
  /-- The clock is in 0 .. CLK_MOD - 1 (R36). -/
  clockInRange : s.clock < s.params.clkMod
  /-- The wait latches are those of R144 for some reading T0 of the clock (R32). -/
  latchesOfWait : ∀ l, s.latches = some l →
    l.t0 < s.params.clkMod ∧ l = latchWait s.params.timeoutMs s.params.clkMod l.t0
  /-- Without a busy line the latches are never written (R147). -/
  latchesNeedAux : s.params.hasAux = false → s.latches = none
  /-- WAIT_AUX is entered only with a busy line (R139). -/
  waitAuxWired : ∀ o, s.seq = .waitAux o → s.params.hasAux = true
  /-- WAIT_FALLBACK is entered only without a busy line (R139). -/
  fallbackUnwired : ∀ o, s.seq = .waitFallback o → s.params.hasAux = false
  /-- After ASSERT the target is one of the four modes, and wired lines show its pattern (R135, R136). -/
  targetAsserted : s.seq.afterAssert = true →
    ∃ t : Byte, s.tgt = some t ∧ t.toNat < 4 ∧
      (s.params.hasM0 = true → s.m0 = some (t.getLsbD 0) ∧ s.m1 = some (t.getLsbD 1))
  /-- Absent lines are never driven (R33, R134). -/
  absentLinesUndriven : s.params.hasM0 = false → s.m0 = none ∧ s.m1 = none
  /-- The lines are driven both or not at all (R136). -/
  linesTogether : s.m0.isSome = s.m1.isSome
  /-- A recorded mode was confirmed by a SET_MODE that drove the wired lines (R29, R136). -/
  recordedModeDriven : s.curMode ≠ .unknown → s.params.hasM0 = true → s.m0 ≠ none
  /-- BUF_OUT_LEN is none, 6 or 11 (R27). -/
  outLenLegal : s.results.bufOutLen = none ∨ s.results.bufOutLen = some 6 ∨ s.results.bufOutLen = some 11
  /-- BUF_OUT holds bytes exactly below BUF_OUT_LEN (R27, R100, R120). -/
  outFilled : ∀ i : Fin 11, (s.results.bufOut.get i ≠ none ↔ ∃ n, s.results.bufOutLen = some n ∧ i.val < n)
  /-- STATUS is none or a status the block returns (R34, R170). -/
  statusOfBlock : ∀ r, s.status = some r → r.ofBlock = true

end Machine

end Sys2Proof
end

