-- ==== Sys2Proof/Certificates/Slice0/Obligations.lean ====
section
/-!
DEFINITION. The statements for the provers, one definition each; OBLIGATIONS.json lists them with the rules of spec/ they
formalise. `run k s` is k steps from s (Safety.lean).
-/

open Sys2Proof Sys2Proof.Machine

/-! ## Command words -/

/-- Every operation is what its own command word decodes to (R85, R86, R91; the spec's decision D9, log 18). -/
def Obligations.DecodingAnEncodedOperationGivesItBack : Prop :=
  ∀ i : Instr, i.wf = true → decode (encode i) = .ok i

/-- A word that decodes is the word of the operation it decodes to: no bit of a command word is dropped (R85, R86;
the spec's decision D9, log 18). -/
def Obligations.AcceptedWordIsTheWordOfItsOperation : Prop :=
  ∀ (w : Word) (i : Instr), decode w = .ok i → i.wf = true ∧ encode i = w

/-- The words the decoder rejects are exactly those whose OP is not in the map (R86, R87; decisions D9, D10, log 18). -/
def Obligations.DecoderRejectsExactlyOpsOutsideTheMap : Prop :=
  ∀ w : Word, (∀ i, decode w ≠ .ok i) ↔ w.toNat / 256 ∉ [0x01, 0x02, 0x03, 0x04, 0x10, 0x11, 0x20, 0x21]

/-- Command words the spec writes out (R91 and 95_test_vectors) decode to the operations they stand for (decision D9,
log 18). -/
def Obligations.WordsWrittenInTheSpecDecode : Prop :=
  decode 0x01FF = .ok (.encCfg 0xFF) ∧ decode 0x020B = .ok (.decCfg 11) ∧ decode 0x0300 = .ok (.encInfo 0) ∧
  decode 0x0404 = .ok (.decInfo 4) ∧ decode 0x1003 = .ok (.setMode 3) ∧ decode 0x1100 = .ok (.waitReady 0) ∧
  decode 0x2000 = .ok (.hdrChk 0) ∧ decode 0x2100 = .ok (.chanFreq 0)

/-! ## Accepting a command -/

/-- An idle sequencer runs the operation the presented word decodes to; the step takes the word off the command port and
adds nothing else (R58, R60, R85). That the word leaves the port is the model's choice (log 8). -/
def Obligations.StepRunsTheDecodedCommand : Prop :=
  ∀ (s : State) (w : Word) (i : Instr), s.seq = .idle → s.cmd = some w → decode w = .ok i →
    step s = exec i { s with cmd := none }

/-- An OP outside the map returns NotSupported at once; SEQ stays IDLE and nothing else changes (R87). NotSupported
is the spec's decision D10 (log 18); that the word leaves the command port is the model's choice (log 8). -/
def Obligations.IllegalOpReturnsNotSupported : Prop :=
  ∀ (s : State) (w : Word), s.seq = .idle → s.cmd = some w →
    w.toNat / 256 ∉ [0x01, 0x02, 0x03, 0x04, 0x10, 0x11, 0x20, 0x21] →
    step s = .next { s with cmd := none, status := some .notSupported }

/-- While SEQ is not IDLE no operation is accepted, and whatever stands on the command port neither changes nor disturbs the
running operation (R60; the spec's decision D23, log 18; how `exec` and `step` show it is the model's choice, log 9). -/
def Obligations.BusySequencerTakesNoCommand : Prop :=
  ∀ s : State, s.seq ≠ .idle →
    (∀ i : Instr, exec i s = .refused .sequencerBusy) ∧
    (∀ t : State, step s = .next t → t.cmd = s.cmd ∧ ∀ c : Option Word, step { s with cmd := c } = .next { t with cmd := c })

/-- With no command presented an idle block stays as it is (R200: "the block waits for its first command"). The model's
reading of that sentence: log 8. -/
def Obligations.IdleBlockWithoutCommandStays : Prop :=
  ∀ s : State, s.seq = .idle → s.cmd = none → ∀ k : Nat, run k s = .next s

/-! ## The codec -/

/-- ENC_CFG: the eleven bytes by the formulae of R101, whatever ARG and the operands are. Nothing else changes; that the
decoded HDR, CFG, INFO and FREQ results stay is the model's choice (log 13). The masks of the one-bit fields and HDR as an operand are the spec's decisions D3 and D6 (log 18). -/
def Obligations.EncCfgPacksTheFrame : Prop :=
  ∀ (arg : Byte) (s : State), s.seq = .idle →
    exec (.encCfg arg) s = .next { s with
      status := some .success
      results := { s.results with
        bufOutLen := some 11
        bufOut := (#v[
          s.ports.hdr.cmd % 256,
          s.ports.hdr.addr % 256,
          s.ports.hdr.len % 256,
          s.ports.cfg.addh % 256,
          s.ports.cfg.addl % 256,
          (((s.ports.cfg.baud &&& 0b111) <<< 5) ||| ((s.ports.cfg.parity &&& 0b11) <<< 3)
            ||| (s.ports.cfg.airRate &&& 0b111)) % 256,
          (((s.ports.cfg.subpkt &&& 0b11) <<< 6) ||| ((s.ports.cfg.rssiNoise &&& 0b1) <<< 5)
            ||| (s.ports.cfg.power &&& 0b11)) % 256,
          s.ports.cfg.chan % 256,
          (((s.ports.cfg.rssiEn &&& 0b1) <<< 7) ||| ((s.ports.cfg.fixed &&& 0b1) <<< 6)
            ||| ((s.ports.cfg.lbt &&& 0b1) <<< 4) ||| (s.ports.cfg.wor &&& 0b111)) % 256,
          s.ports.cfg.cryptH % 256,
          s.ports.cfg.cryptL % 256] : Vector Nat 11).map fun v => some (BitVec.ofNat 8 v) } }

/-- The bits with no field are 0 in every frame ENC_CFG makes (R74, R102(c); the spec's decision D4, log 18). -/
def Obligations.EncCfgLeavesFieldlessBitsZero : Prop :=
  ∀ (arg : Byte) (s : State), s.seq = .idle →
    ∃ (t : State) (option transMode : Byte), exec (.encCfg arg) s = .next t ∧
      t.results.bufOut.get 6 = some option ∧ option &&& 0x1C = 0 ∧
      t.results.bufOut.get 8 = some transMode ∧ transMode &&& 0x28 = 0

/-- An operand wider than its field keeps only its low bits: two operands that agree modulo 2 to the width of every field
give the same frame, so no bit of one field reaches another (R102(b), R83; for the one-bit fields the spec's decision D3,
log 18). -/
def Obligations.EncCfgReadsOnlyTheLowBitsOfEachField : Prop :=
  ∀ (arg : Byte) (s : State) (h : HdrOperand) (c : CfgOperand), s.seq = .idle →
    h.cmd % 256 = s.ports.hdr.cmd % 256 → h.addr % 256 = s.ports.hdr.addr % 256 → h.len % 256 = s.ports.hdr.len % 256 →
    c.addh % 256 = s.ports.cfg.addh % 256 → c.addl % 256 = s.ports.cfg.addl % 256 →
    c.airRate % 8 = s.ports.cfg.airRate % 8 → c.parity % 4 = s.ports.cfg.parity % 4 → c.baud % 8 = s.ports.cfg.baud % 8 →
    c.power % 4 = s.ports.cfg.power % 4 → c.rssiNoise % 2 = s.ports.cfg.rssiNoise % 2 →
    c.subpkt % 4 = s.ports.cfg.subpkt % 4 → c.chan % 256 = s.ports.cfg.chan % 256 → c.wor % 8 = s.ports.cfg.wor % 8 →
    c.lbt % 2 = s.ports.cfg.lbt % 2 → c.fixed % 2 = s.ports.cfg.fixed % 2 → c.rssiEn % 2 = s.ports.cfg.rssiEn % 2 →
    c.cryptH % 256 = s.ports.cfg.cryptH % 256 → c.cryptL % 256 = s.ports.cfg.cryptL % 256 →
    ∃ t : State, exec (.encCfg arg) s = .next t ∧
      exec (.encCfg arg) { s with ports := { s.ports with hdr := h, cfg := c } } =
        .next { t with ports := { s.ports with hdr := h, cfg := c } }

/-- DEC_CFG: for n = 11 every field by the arithmetic of R82 on the bytes of BUF_IN; for any other n DataSizeNotMatch and no
field, whatever BUF_IN holds (R105, R106; the spec's decisions D5 on the key bytes and D7 on the failure, log 18).
That INFO, BUF_OUT, BUF_OUT_LEN and FREQ stay is the model's choice (log 13). -/
def Obligations.DecCfgUnpacksTheFrame : Prop :=
  ∀ (n : Nat) (s : State), s.seq = .idle →
    exec (.decCfg n) s = .next (
      if n = 11 then
        { s with
          status := some .success
          results := { s.results with
            hdr := some ⟨Memory.read s.ports.bufIn 0, Memory.read s.ports.bufIn 1, Memory.read s.ports.bufIn 2⟩
            cfg := some {
              addh := Memory.read s.ports.bufIn 3
              addl := Memory.read s.ports.bufIn 4
              airRate := BitVec.ofNat 3 ((Memory.read s.ports.bufIn 5).toNat % 8)
              parity := BitVec.ofNat 2 (((Memory.read s.ports.bufIn 5).toNat >>> 3) % 4)
              baud := BitVec.ofNat 3 ((Memory.read s.ports.bufIn 5).toNat >>> 5)
              power := BitVec.ofNat 2 ((Memory.read s.ports.bufIn 6).toNat % 4)
              rssiNoise := BitVec.ofNat 1 (((Memory.read s.ports.bufIn 6).toNat >>> 5) % 2)
              subpkt := BitVec.ofNat 2 ((Memory.read s.ports.bufIn 6).toNat >>> 6)
              chan := Memory.read s.ports.bufIn 7
              wor := BitVec.ofNat 3 ((Memory.read s.ports.bufIn 8).toNat % 8)
              lbt := BitVec.ofNat 1 (((Memory.read s.ports.bufIn 8).toNat >>> 4) % 2)
              fixed := BitVec.ofNat 1 (((Memory.read s.ports.bufIn 8).toNat >>> 6) % 2)
              rssiEn := BitVec.ofNat 1 ((Memory.read s.ports.bufIn 8).toNat >>> 7)
              cryptH := Memory.read s.ports.bufIn 9
              cryptL := Memory.read s.ports.bufIn 10 } } }
      else
        { s with
          status := some .dataSizeNotMatch
          results := { s.results with hdr := none, cfg := none } })

/-- ENC_INFO: six bytes modulo 256, the rest of BUF_OUT `none` (R120, R121; the reduction is the spec's decision D8,
log 18). That the decoded HDR, CFG, INFO and FREQ results stay is the model's choice (log 13). -/
def Obligations.EncInfoCopiesTheBytes : Prop :=
  ∀ (arg : Byte) (s : State), s.seq = .idle →
    exec (.encInfo arg) s = .next { s with
      status := some .success
      results := { s.results with
        bufOutLen := some 6
        bufOut := #v[some (BitVec.ofNat 8 (s.ports.hdr.cmd % 256)), some (BitVec.ofNat 8 (s.ports.hdr.addr % 256)),
          some (BitVec.ofNat 8 (s.ports.hdr.len % 256)), some (BitVec.ofNat 8 (s.ports.info.model % 256)),
          some (BitVec.ofNat 8 (s.ports.info.version % 256)), some (BitVec.ofNat 8 (s.ports.info.features % 256)),
          none, none, none, none, none] } }

/-- DEC_INFO: for n = 6 a plain copy; for any other n (4 among them) DataSizeNotMatch and no field, whatever BUF_IN holds
(R123, R124; the length rule is the spec's decision D8, log 18). That CFG, BUF_OUT, BUF_OUT_LEN and FREQ stay is the model's
choice (log 13). -/
def Obligations.DecInfoCopiesTheBytes : Prop :=
  ∀ (n : Nat) (s : State), s.seq = .idle →
    exec (.decInfo n) s = .next (
      if n = 6 then
        { s with
          status := some .success
          results := { s.results with
            hdr := some ⟨Memory.read s.ports.bufIn 0, Memory.read s.ports.bufIn 1, Memory.read s.ports.bufIn 2⟩
            info := some ⟨Memory.read s.ports.bufIn 3, Memory.read s.ports.bufIn 4, Memory.read s.ports.bufIn 5⟩ } }
      else
        { s with
          status := some .dataSizeNotMatch
          results := { s.results with hdr := none, info := none } })

/-- Field round trip (R108): DEC_CFG on the frame ENC_CFG made returns every operand reduced to its width, the key bytes and
the header among them; operands within their widths come back as they were. -/
def Obligations.ConfigFieldsSurviveEncodeThenDecode : Prop :=
  ∀ (arg : Byte) (s : State), s.seq = .idle →
    ∃ t : State, exec (.encCfg arg) s = .next t ∧
      ∀ u : State, u.seq = .idle → (∀ i : Fin 11, t.results.bufOut.get i = some (Memory.read u.ports.bufIn i.val)) →
        ∃ (v : State) (h : Hdr) (c : Cfg), exec (.decCfg 11) u = .next v ∧ v.status = some .success ∧
          v.results.hdr = some h ∧ v.results.cfg = some c ∧
          h.cmd.toNat = s.ports.hdr.cmd % 256 ∧ h.addr.toNat = s.ports.hdr.addr % 256 ∧
          h.len.toNat = s.ports.hdr.len % 256 ∧ c.addh.toNat = s.ports.cfg.addh % 256 ∧
          c.addl.toNat = s.ports.cfg.addl % 256 ∧ c.airRate.toNat = s.ports.cfg.airRate % 8 ∧
          c.parity.toNat = s.ports.cfg.parity % 4 ∧ c.baud.toNat = s.ports.cfg.baud % 8 ∧
          c.power.toNat = s.ports.cfg.power % 4 ∧ c.rssiNoise.toNat = s.ports.cfg.rssiNoise % 2 ∧
          c.subpkt.toNat = s.ports.cfg.subpkt % 4 ∧ c.chan.toNat = s.ports.cfg.chan % 256 ∧
          c.wor.toNat = s.ports.cfg.wor % 8 ∧ c.lbt.toNat = s.ports.cfg.lbt % 2 ∧
          c.fixed.toNat = s.ports.cfg.fixed % 2 ∧ c.rssiEn.toNat = s.ports.cfg.rssiEn % 2 ∧
          c.cryptH.toNat = s.ports.cfg.cryptH % 256 ∧ c.cryptL.toNat = s.ports.cfg.cryptL % 256

/-- Byte round trip (R109): ENC_CFG on what DEC_CFG returned for a frame F gives F with the fieldless bits of bytes 6 and 8
cleared; for a valid frame it gives F in all eleven bytes, the key bytes 0. It rests on decisions D4 and D5 (log 18). -/
def Obligations.ConfigBytesSurviveDecodeThenEncode : Prop :=
  ∀ s : State, s.seq = .idle →
    ∃ (t : State) (h : Hdr) (c : Cfg), exec (.decCfg 11) s = .next t ∧ t.results.hdr = some h ∧ t.results.cfg = some c ∧
      ∀ (arg : Byte) (u : State), u.seq = .idle → u.ports.hdr = h.toOperand → u.ports.cfg = c.toOperand →
        ∃ v : State, exec (.encCfg arg) u = .next v ∧
          (∀ i : Fin 11, v.results.bufOut.get i = some (
            if i.val = 6 then Memory.read s.ports.bufIn 6 &&& 0xE3
            else if i.val = 8 then Memory.read s.ports.bufIn 8 &&& 0xD7
            else Memory.read s.ports.bufIn i.val)) ∧
          (Memory.read s.ports.bufIn 6 &&& 0x1C = 0 → Memory.read s.ports.bufIn 8 &&& 0x28 = 0 →
            Memory.read s.ports.bufIn 9 = 0 → Memory.read s.ports.bufIn 10 = 0 →
            (∀ i : Fin 11, v.results.bufOut.get i = some (Memory.read s.ports.bufIn i.val)) ∧
            v.results.bufOut.get 9 = some 0 ∧ v.results.bufOut.get 10 = some 0)

/-- The pair ENC_INFO, DEC_INFO, both directions exact (R125, which the spec marks as derived from R121 and R123). -/
def Obligations.ModuleInfoSurvivesBothRoundTrips : Prop :=
  (∀ (arg : Byte) (s : State), s.seq = .idle → s.ports.hdr.cmd < 256 → s.ports.hdr.addr < 256 → s.ports.hdr.len < 256 →
    s.ports.info.model < 256 → s.ports.info.version < 256 → s.ports.info.features < 256 →
    ∃ t : State, exec (.encInfo arg) s = .next t ∧
      ∀ u : State, u.seq = .idle →
        (∀ i : Fin 11, i.val < 6 → t.results.bufOut.get i = some (Memory.read u.ports.bufIn i.val)) →
        ∃ (v : State) (h : Hdr) (i : Info), exec (.decInfo 6) u = .next v ∧ v.results.hdr = some h ∧
          v.results.info = some i ∧ h.toOperand = s.ports.hdr ∧ i.toOperand = s.ports.info) ∧
  (∀ s : State, s.seq = .idle →
    ∃ (t : State) (h : Hdr) (i : Info), exec (.decInfo 6) s = .next t ∧ t.results.hdr = some h ∧ t.results.info = some i ∧
      ∀ (arg : Byte) (u : State), u.seq = .idle → u.ports.hdr = h.toOperand → u.ports.info = i.toOperand →
        ∃ v : State, exec (.encInfo arg) u = .next v ∧
          ∀ k : Fin 11, k.val < 6 → v.results.bufOut.get k = some (Memory.read s.ports.bufIn k.val))

/-- The codec is a pure transform (R20, R111). Each of its operations answers on every idle state, writing STATUS and results
only. On two idle states that present the operands of that operation alike (HDR and CFG for ENC_CFG, HDR and INFO for
ENC_INFO, the n presented bytes of BUF_IN for a decoder) it gives the same results and the same status, whatever else differs:
the other operand ports, CUR_MODE, the lines, the latches, the clock, the environment, the parameters, the results of earlier
operations. An encoder, and a decoder given its frame's length, ends with Success. -/
def Obligations.CodecDependsOnItsOperandsOnly : Prop :=
  ∀ (i : Instr) (s u : State), i.isCodec = true → s.seq = .idle → u.seq = .idle →
    (match i with
      | .encCfg _ => s.ports.hdr = u.ports.hdr ∧ s.ports.cfg = u.ports.cfg
      | .encInfo _ => s.ports.hdr = u.ports.hdr ∧ s.ports.info = u.ports.info
      | .decCfg n | .decInfo n => ∀ k < n, Memory.read s.ports.bufIn k = Memory.read u.ports.bufIn k
      | .setMode _ | .waitReady _ | .hdrChk _ | .chanFreq _ => False) →
    ∃ t v : State, exec i s = .next t ∧ exec i u = .next v ∧ t.status = v.status ∧
      t = { s with results := t.results, status := t.status } ∧ v = { u with results := v.results, status := v.status } ∧
      match i with
      | .encCfg _ | .encInfo _ =>
        t.results.bufOut = v.results.bufOut ∧ t.results.bufOutLen = v.results.bufOutLen ∧ t.status = some .success
      | .decCfg n =>
        t.results.hdr = v.results.hdr ∧ t.results.cfg = v.results.cfg ∧ (n = 11 → t.status = some .success)
      | .decInfo n =>
        t.results.hdr = v.results.hdr ∧ t.results.info = v.results.info ∧ (n = 6 → t.status = some .success)
      | .setMode _ | .waitReady _ | .hdrChk _ | .chanFreq _ => False

/-- Frame of the one-step operations ENC_CFG, DEC_CFG, ENC_INFO, DEC_INFO, HDR_CHK, CHAN_FREQ: only STATUS and the results
the operation produces change; CUR_MODE, SEQ, TGT, the wait latches, the lines, the ports (every byte of BUF_IN among them),
the clock and the record of events stay (R20, R150 last row, R171). That results of other operations stay is the model's
choice (log 13). -/
def Obligations.OneStepOperationsChangeOnlyResults : Prop :=
  ∀ (i : Instr) (s t : State), i.isOneStep = true → exec i s = .next t →
    t = { s with results := t.results, status := t.status } ∧ t.status ≠ none ∧
    (∀ k : Nat, Memory.read t.ports.bufIn k = Memory.read s.ports.bufIn k) ∧
    match i with
    | .encCfg _ | .encInfo _ =>
      t.results = { s.results with bufOut := t.results.bufOut, bufOutLen := t.results.bufOutLen }
    | .decCfg _ => t.results = { s.results with hdr := t.results.hdr, cfg := t.results.cfg }
    | .decInfo _ => t.results = { s.results with hdr := t.results.hdr, info := t.results.info }
    | .chanFreq _ => t.results = { s.results with freq := t.results.freq }
    | .hdrChk _ | .setMode _ | .waitReady _ => t.results = s.results

/-! ## Auxiliary functions -/

/-- HDR_CHK (R161): the sentinel first, then the three comparisons; only STATUS is written. Putting the sentinel test first
changes nothing when the expected opcode is not the sentinel. The order of the tests is the spec's decision D28 (log 18). -/
def Obligations.HdrChkComparesTheHeaders : Prop :=
  ∀ (arg : Byte) (s : State), s.seq = .idle →
    exec (.hdrChk arg) s = .next { s with
      status := some (
        if s.ports.got.cmd = s.params.opcWrongFormat then .wrongFormat
        else if s.ports.got.cmd ≠ s.ports.expected.cmd ∨ s.ports.got.addr ≠ s.ports.expected.addr ∨
          s.ports.got.len ≠ s.ports.expected.len then .headNotRecognized
        else .success) } ∧
    (s.ports.expected.cmd ≠ s.params.opcWrongFormat →
      exec (.hdrChk arg) s = .next { s with
        status := some (
          if s.ports.got = s.ports.expected then .success
          else if s.ports.got.cmd = s.params.opcWrongFormat then .wrongFormat
          else .headNotRecognized) })

/-- CHAN_FREQ (R163): FREQ = BASE + CHAN without wrap for CHAN in 0 .. 255, refused above. That the results of other
operations stay is the model's choice (log 13). -/
def Obligations.ChanFreqAddsChannelToBase : Prop :=
  ∀ (arg : Byte) (s : State), s.seq = .idle →
    (s.ports.chan ≤ 255 → exec (.chanFreq arg) s = .next { s with
      status := some .success
      results := { s.results with freq := some (s.ports.base + s.ports.chan) } }) ∧
    (255 < s.ports.chan → exec (.chanFreq arg) s = .refused .channelOutOfDomain)

/-- A string is a model descriptor exactly when it is a family, a series, a power class and a package letter one after the
other; any other string fails with InvalidModel (R164). -/
def Obligations.DescriptorsAreExactlyThePattern : Prop :=
  ∀ text : List Char,
    ((∃ d, constructModel text = .ok d) ↔
      ∃ family ∈ [['2', '3', '0'], ['4', '0', '0'], ['9', '0', '0']],
        ∃ series ∈ [['T'], ['R'], ['M', 'M'], ['M']], ∃ power ∈ [['2', '2'], ['3', '0']],
          ∃ package ∈ [['S'], ['D']], text = family ++ series ++ power ++ package) ∧
    ((∀ d, constructModel text ≠ .ok d) → constructModel text = .error .invalidModel)

/-- The parts found are those written: a descriptor is read back from its own text (R164, R165). -/
def Obligations.DescriptorIsReadBackFromItsText : Prop :=
  ∀ (text : List Char) (d : Descriptor), constructModel text = .ok d ↔ text = d.text

/-! ## SET_MODE and WAIT_READY, phase by phase -/

/-- SET_MODE is accepted (R131, R150): TGT is latched, SEQ is SETTLE1, nothing else changes; every target code is accepted
(the phases are the spec's decision D25, log 18). -/
def Obligations.SetModeIsAcceptedIntoSettle1 : Prop :=
  ∀ (t : Byte) (s : State), s.seq = .idle → exec (.setMode t) s = .next { s with sequencer := .settle1 t s.latches }

/-- Step 1 (R132): the settle hold is taken on every SET_MODE, whatever the target, the wiring or CUR_MODE, and before the
target is looked at. -/
def Obligations.SetModeSettlesBeforeTheTargetIsChecked : Prop :=
  ∀ (t : Byte) (s : State), s.seq = .idle →
    ∃ s1 : State, exec (.setMode t) s = .next s1 ∧
      step s1 = .next { s with sequencer := .assert t s.latches, events := s.events ++ [.hold s.params.settleMs] }

/-- Step 3, check (R135): a target code of 4 or more ends SET_MODE with InvalidParameter after one hold, in every wiring; no
line is driven, CUR_MODE and the wait latches stay. The check in every wiring is the spec's decision D13 (log 18). -/
def Obligations.IllegalTargetEndsWithInvalidParameter : Prop :=
  ∀ (t : Byte) (s : State), s.seq = .idle → 4 ≤ t.toNat →
    ∃ s1 : State, exec (.setMode t) s = .next s1 ∧
      run 2 s1 = .next { s with
        sequencer := .idle (some t) s.latches, status := some .invalidParameter
        events := s.events ++ [.hold s.params.settleMs] }

/-- Step 3, drive (R136): both lines are driven to the bits of the target, whatever levels they had and whatever CUR_MODE is,
as two pin events whose order is open: some order is taken, and each order is admitted (the spec's decision D16, log 18; how
the order is drawn is the model's choice, log 5). -/
def Obligations.AssertDrivesBothLinesInEitherOrder : Prop :=
  ∀ (t : Byte) (s : State), s.seq = .assert → s.tgt = some t → t.toNat < 4 → s.params.hasM0 = true →
    s.params.hasM1 = true →
    ∃ m0First : Bool,
      step s = .next { s with
        sequencer := .settle2 t s.latches
        m0 := some (t.getLsbD 0)
        m1 := some (t.getLsbD 1)
        orderIn := s.orderIn.tail
        draws := s.draws + 1
        events := s.events ++
          (if m0First then [.drive .m0 (t.getLsbD 0), .drive .m1 (t.getLsbD 1)]
            else [.drive .m1 (t.getLsbD 1), .drive .m0 (t.getLsbD 0)]) } ∧
      ∀ (b : Bool) (rest : List Bool), s.orderIn = b :: rest → m0First = b

/-- The pattern of each mode on the two lines (R80): Normal both low, WorTx A high and B low, PowerSaving A low and B high,
Configuration both high. -/
def Obligations.LinesShowThePatternOfTheMode : Prop :=
  ∀ (t : Byte) (m : Mode) (s : State), s.seq = .assert → s.tgt = some t → modeOf t = some m → s.params.hasM0 = true →
    s.params.hasM1 = true →
    ∃ u : State, step s = .next u ∧
      (m = .normal → u.m0 = some false ∧ u.m1 = some false) ∧
      (m = .worTx → u.m0 = some true ∧ u.m1 = some false) ∧
      (m = .powerSaving → u.m0 = some false ∧ u.m1 = some true) ∧
      (m = .configuration → u.m0 = some true ∧ u.m1 = some true) ∧
      m ≠ .unknown

/-- Both mode-select lines absent (R134): a legal target goes on to the second settle hold with nothing driven, so that M0 and
M1 stay as they were; the target check is made all the same (IllegalTargetEndsWithInvalidParameter). -/
def Obligations.AbsentLinesAreSkipped : Prop :=
  ∀ (t : Byte) (s : State), s.seq = .assert → s.tgt = some t → t.toNat < 4 → s.params.hasM0 = false →
    s.params.hasM1 = false → step s = .next { s with sequencer := .settle2 t s.latches }

/-- Exactly one mode-select line wired is refused when a SET_MODE with a legal target comes to drive the lines (R137; that the
refusal stands there and not earlier is the model's choice, log 14). -/
def Obligations.OneWiredLineIsRefused : Prop :=
  ∀ (t : Byte) (s : State), s.seq = .assert → s.tgt = some t → t.toNat < 4 → s.params.hasM0 ≠ s.params.hasM1 →
    step s = .refused .oneModeLineWired

/-- Entry to WAIT_AUX from SETTLE2 (R138, R144): the second hold, then T0 is read, and DEADLINE and OVF follow from it; a sum
that does not fit the clock's range sets OVF and DEADLINE 0 (the spec's decision D19, log 18; the readings: log 4). -/
def Obligations.SecondSettleLatchesTheWait : Prop :=
  ∀ (t : Byte) (s : State), s.seq = .settle2 → s.tgt = some t → s.params.hasAux = true →
    ∃ c : Nat,
      step s = .next { s with
        sequencer := .waitAux (.setMode t) (
          if s.params.clkMod ≤ c + s.params.timeoutMs then { t0 := c, deadline := 0, ovf := true }
          else { t0 := c, deadline := c + s.params.timeoutMs, ovf := false })
        clock := c
        elapsedIn := s.elapsedIn.tail
        draws := s.draws + 1
        events := s.events ++ [.hold s.params.settleMs, .clock c] } ∧
      ∀ (e : Nat) (rest : List Nat), s.elapsedIn = e :: rest → c = (s.clock + e) % s.params.clkMod

/-- WAIT_READY is accepted (R148, R150): with a busy line the latches are written and SEQ is WAIT_AUX, without one SEQ is
WAIT_FALLBACK; TGT, the lines and CUR_MODE stay, and there is no settle hold. WAIT_READY as an operation and the
overflow rule are the spec's decisions D9 and D19 (log 18). -/
def Obligations.WaitReadyEntersTheWait : Prop :=
  ∀ (arg : Byte) (s : State), s.seq = .idle →
    (s.params.hasAux = true →
      ∃ c : Nat,
        exec (.waitReady arg) s = .next { s with
          sequencer := .waitAux (.waitReady s.tgt) (
            if s.params.clkMod ≤ c + s.params.timeoutMs then { t0 := c, deadline := 0, ovf := true }
            else { t0 := c, deadline := c + s.params.timeoutMs, ovf := false })
          clock := c
          elapsedIn := s.elapsedIn.tail
          draws := s.draws + 1
          events := s.events ++ [.clock c] } ∧
        ∀ (e : Nat) (rest : List Nat), s.elapsedIn = e :: rest → c = (s.clock + e) % s.params.clkMod) ∧
    (s.params.hasAux = false →
      exec (.waitReady arg) s = .next { s with sequencer := .waitFallback (.waitReady s.tgt) s.latches })

/-- `expired` (R144, R145): without overflow the clock has reached the deadline or is found wrapped; with overflow it is found
wrapped; and with overflow the time to the wrap is at most TIMEOUT_MS. The predicates are the spec's decision D19 (log 18). -/
def Obligations.ExpiryFollowsTheTwoPredicates : Prop :=
  ∀ timeoutMs clkMod t0 c : Nat,
    (t0 + timeoutMs < clkMod →
      (expired (latchWait timeoutMs clkMod t0) c = true ↔ t0 + timeoutMs ≤ c ∨ c < t0)) ∧
    (clkMod ≤ t0 + timeoutMs →
      (expired (latchWait timeoutMs clkMod t0) c = true ↔ c < t0) ∧ clkMod - t0 ≤ timeoutMs)

/-- Within one turn of the clock, `expired` holds exactly when TIMEOUT_MS milliseconds have passed since T0, or, with
overflow, when the clock has wrapped: the wait is never late, and early only by the overflow rule (R145, R149, R209; it
rests on the spec's decision D19, log 18). -/
def Obligations.ExpiryMeansTheTimeHasPassed : Prop :=
  ∀ timeoutMs clkMod t0 elapsed : Nat, t0 < clkMod → timeoutMs < clkMod → elapsed < clkMod →
    (expired (latchWait timeoutMs clkMod t0) ((t0 + elapsed) % clkMod) = true ↔
      timeoutMs ≤ elapsed ∨ (clkMod ≤ t0 + timeoutMs ∧ clkMod - t0 ≤ elapsed))

/-- One poll that finds the line high (R143, R146): Success, however late the clock is, since the clock is not read; a
SET_MODE records its target as CUR_MODE, a WAIT_READY does not touch CUR_MODE. The level test and the order
of the two tests are the spec's decisions D17 and D18 (log 18). -/
def Obligations.HighLineEndsTheWaitWithSuccess : Prop :=
  ∀ (s : State) (rest : List Bool), s.auxIn = true :: rest →
    (s.seq = .waitAux .waitReady →
      step s = .next { s with
        sequencer := .idle s.tgt s.latches, status := some .success, auxIn := rest, draws := s.draws + 1
        events := s.events ++ [.sample true] }) ∧
    (∀ (t : Byte) (m : Mode), s.seq = .waitAux .setMode → s.tgt = some t → modeOf t = some m →
      step s = .next { s with
        sequencer := .idle s.tgt s.latches, status := some .success, curMode := m, auxIn := rest
        draws := s.draws + 1
        events := s.events ++ [.sample true] })

/-- One poll that finds the line low (R145, R146): then one clock reading, and Timeout if it has expired, else the wait goes
on; CUR_MODE, the lines and the latches stay either way, in SET_MODE as in WAIT_READY (decisions D18 and D19, log 18). -/
def Obligations.LowLinePollsTheClock : Prop :=
  ∀ (s : State) (o : Origin) (l : Latches) (rest : List Bool) (e : Nat) (more : List Nat),
    s.seq = .waitAux o → s.latches = some l → s.auxIn = false :: rest → s.elapsedIn = e :: more →
    ∃ c : Nat, c = (s.clock + e) % s.params.clkMod ∧
      step s = .next { s with
        sequencer := if (if l.ovf then decide (c < l.t0) else decide (l.deadline ≤ c ∨ c < l.t0)) then .idle s.tgt (some l)
          else s.sequencer
        status := if (if l.ovf then decide (c < l.t0) else decide (l.deadline ≤ c ∨ c < l.t0)) then some .timeout
          else s.status
        auxIn := rest
        clock := c
        elapsedIn := more
        draws := s.draws + 2
        events := s.events ++ [.sample false, .clock c] }

/-- The fallback wait (R139, R147): without a busy line both operations enter WAIT_FALLBACK, which is one hold of FALLBACK_MS and
Success; nothing is sampled, no clock is read, no latch is written, and it cannot time out. SET_MODE then records its
target (R140), WAIT_READY leaves CUR_MODE (R148). SETTLE2 ends with the second settle hold (R138). WAIT_READY as an operation is
the spec's decision D9 (log 18). -/
def Obligations.FallbackWaitAssumesReadiness : Prop :=
  ∀ s : State, s.params.hasAux = false →
    (∀ arg : Byte, s.seq = .idle →
      exec (.waitReady arg) s = .next { s with sequencer := .waitFallback (.waitReady s.tgt) s.latches }) ∧
    (∀ t : Byte, s.seq = .settle2 → s.tgt = some t →
      step s = .next { s with
        sequencer := .waitFallback (.setMode t) s.latches, events := s.events ++ [.hold s.params.settleMs] }) ∧
    (s.seq = .waitFallback .waitReady →
      step s = .next { s with
        sequencer := .idle s.tgt s.latches, status := some .success
        events := s.events ++ [.hold s.params.fallbackMs] }) ∧
    (∀ (t : Byte) (m : Mode), s.seq = .waitFallback .setMode → s.tgt = some t → modeOf t = some m →
      step s = .next { s with
        sequencer := .idle s.tgt s.latches, status := some .success, curMode := m
        events := s.events ++ [.hold s.params.fallbackMs] })

/-! ## Whole operations -/

/-- SET_MODE with neither mode-select line nor busy line wired (R134, R142(e)): two settle holds and the fallback hold, then
Success and the target recorded; nothing driven, nothing sampled, no clock read. -/
def Obligations.SetModeUnwiredRecordsTheTarget : Prop :=
  ∀ (t : Byte) (m : Mode) (s : State), s.seq = .idle → modeOf t = some m → s.params.hasM0 = false →
    s.params.hasM1 = false → s.params.hasAux = false →
    ∃ s1 : State, exec (.setMode t) s = .next s1 ∧
      run 4 s1 = .next { s with
        sequencer := .idle (some t) s.latches, curMode := m, status := some .success
        events := s.events ++
          [.hold s.params.settleMs, .hold s.params.settleMs, .hold s.params.fallbackMs] }

/-- SET_MODE with everything wired and the line high at the first poll (R130, R131): the events in the order of the
pseudocode, the lines at the target's levels, CUR_MODE the target's mode, Success. The order of the two drives is the drawn
one. -/
def Obligations.SetModeRunsItsStepsInOrder : Prop :=
  ∀ (t : Byte) (m : Mode) (s : State) (e : Nat) (more : List Nat) (rest order : List Bool),
    s.seq = .idle → modeOf t = some m → s.params.hasM0 = true → s.params.hasM1 = true → s.params.hasAux = true →
    s.elapsedIn = e :: more → s.auxIn = true :: rest → s.orderIn = true :: order →
    ∃ s1 v : State, exec (.setMode t) s = .next s1 ∧ run 4 s1 = .next v ∧
      v.seq = .idle ∧ v.curMode = m ∧ v.status = some .success ∧ v.tgt = some t ∧
      v.m0 = some (t.getLsbD 0) ∧ v.m1 = some (t.getLsbD 1) ∧
      v.events = s.events ++ [.hold s.params.settleMs, .drive .m0 (t.getLsbD 0), .drive .m1 (t.getLsbD 1),
        .hold s.params.settleMs, .clock ((s.clock + e) % s.params.clkMod), .sample true] ∧
      v.results = s.results ∧ v.ports = s.ports ∧ v.params = s.params ∧ v.cmd = s.cmd

/-- SET_MODE whose first poll finds the line low and the bound reached (R140, R141(b), R207): Timeout; CUR_MODE is the old
mode while the lines show the target's pattern, and nothing drives them back (the spec's decision D24, log 18). -/
def Obligations.TimedOutSetModeLeavesTheLinesDriven : Prop :=
  ∀ (t : Byte) (s : State) (e0 e1 : Nat) (more : List Nat) (rest : List Bool),
    s.seq = .idle → t.toNat < 4 → s.params.hasM0 = true → s.params.hasM1 = true → s.params.hasAux = true →
    s.params.timeoutMs < s.params.clkMod → s.elapsedIn = e0 :: e1 :: more → s.auxIn = false :: rest →
    s.params.timeoutMs ≤ e1 → e1 < s.params.clkMod →
    ∃ s1 v : State, exec (.setMode t) s = .next s1 ∧ run 4 s1 = .next v ∧
      v.seq = .idle ∧ v.status = some .timeout ∧ v.curMode = s.curMode ∧
      v.m0 = some (t.getLsbD 0) ∧ v.m1 = some (t.getLsbD 1) ∧ v.results = s.results ∧ v.ports = s.ports

/-- The bound (R149): a wait whose samples are all 0 ends with Timeout, CUR_MODE unchanged, no later than the poll at which
TIMEOUT_MS milliseconds have passed since T0, when polls are no more than CLK_MOD - TIMEOUT_MS milliseconds apart (R209). It rests
on decision D19 (log 18); a poll as one step and its readings are the model's choice (log 4). -/
def Obligations.WaitOnDeadLineEndsWithTimeout : Prop :=
  ∀ (s : State) (o : Origin) (polls : List Nat) (more : List Nat) (rest : List Bool),
    s.seq = .waitAux o → s.clock < s.params.clkMod → s.params.timeoutMs < s.params.clkMod →
    s.latches = some (latchWait s.params.timeoutMs s.params.clkMod s.clock) →
    s.elapsedIn = polls ++ more → s.auxIn = List.replicate polls.length false ++ rest →
    (∀ e ∈ polls, e ≤ s.params.clkMod - s.params.timeoutMs) → s.params.timeoutMs ≤ polls.sum → polls ≠ [] →
    ∃ (k : Nat) (v : State), k ≤ polls.length ∧ run k s = .next v ∧
      v.seq = .idle ∧ v.status = some .timeout ∧ v.curMode = s.curMode ∧ v.m0 = s.m0 ∧ v.m1 = s.m1

/-- A line that rises in time (R139, R146): if the samples are 0 at every poll until one is 1, and the polls before it end
before the bound and before the clock wraps, the wait ends with Success at that poll; SET_MODE records its target, WAIT_READY
leaves CUR_MODE and asks nothing of TGT, which is `none` straight after reset. It rests on decisions D18 and D19 (log 18). -/
def Obligations.WaitOnRisingLineEndsWithSuccess : Prop :=
  ∀ (s : State) (o : Origin) (polls : List Nat) (more : List Nat) (rest : List Bool),
    s.seq = .waitAux o → s.clock < s.params.clkMod →
    s.latches = some (latchWait s.params.timeoutMs s.params.clkMod s.clock) →
    (o = .setMode → ∃ c : Byte, s.tgt = some c ∧ c.toNat < 4) →
    s.elapsedIn = polls ++ more → s.auxIn = List.replicate polls.length false ++ true :: rest →
    (polls = [] ∨ polls.sum < s.params.timeoutMs ∧ s.clock + polls.sum < s.params.clkMod) →
    ∃ v : State, run (polls.length + 1) s = .next v ∧ v.seq = .idle ∧ v.status = some .success ∧
      v.m0 = s.m0 ∧ v.m1 = s.m1 ∧
      match o with
      | .setMode => ∃ c : Byte, s.tgt = some c ∧ modeOf c = some v.curMode
      | .waitReady => v.curMode = s.curMode

/-- The restore duty (R92, R212, R213), for a CUR_MODE that is a mode. First: in every wiring and after any number of polls, when
the SET_MODEs of CFG_ENTER and CFG_LEAVE both return Success, CUR_MODE is Configuration between them and as it was after
them. Second: both do, without a busy line or with one that is high at both first polls. Third: when CUR_MODE is Unknown,
CFG_LEAVE cannot be formed. The target codes are the spec's decision D12 (log 18). -/
def Obligations.ConfigEnvelopeRestoresTheMode : Prop :=
  (∀ (s u v : State) (c : Byte), Pseudo.expand (.cfgLeave s.curMode) = some [.setMode c] →
    completes (.setMode 3) s u → u.status = some .success → completes (.setMode c) u v → v.status = some .success →
    u.curMode = .configuration ∧ v.curMode = s.curMode) ∧
  (∀ s : State, s.seq = .idle → s.cmd = none → s.curMode ≠ .unknown → s.params.hasM0 = s.params.hasM1 →
    (s.params.hasAux = false ∨ ∃ rest : List Bool, s.auxIn = true :: true :: rest) →
    ∃ (u v : State) (c : Byte), Pseudo.expand .cfgEnter = some [.setMode 3] ∧
      completes (.setMode 3) s u ∧ u.status = some .success ∧
      Pseudo.expand (.cfgLeave s.curMode) = some [.setMode c] ∧
      completes (.setMode c) u v ∧ v.status = some .success ∧
      u.curMode = .configuration ∧ v.curMode = s.curMode) ∧
  Pseudo.expand (.cfgLeave .unknown) = none

/-! ## Whole-machine rules, over every step -/

/-- Every transition of SEQ (R150): the pairs of phases a step can connect, and no others. The phases are the
spec's decision D25 (log 18); the idle step is the model's choice (log 8). -/
def Obligations.PhasesFollowTheTransitionTable : Prop :=
  ∀ s t : State, step s = .next t →
    match s.seq with
    | .idle => t.seq = .idle ∨ t.seq = .settle1 ∨ (t.seq = .waitAux .waitReady ∧ s.params.hasAux = true) ∨
        (t.seq = .waitFallback .waitReady ∧ s.params.hasAux = false)
    | .settle1 => t.seq = .assert
    | .assert => (∃ c : Byte, s.tgt = some c ∧ if c.toNat < 4 then t.seq = .settle2
        else t.seq = .idle ∧ t.status = some .invalidParameter)
    | .settle2 => if s.params.hasAux = true then t.seq = .waitAux .setMode else t.seq = .waitFallback .setMode
    | .waitAux o => t.seq = .waitAux o ∨ (t.seq = .idle ∧ (t.status = some .success ∨ t.status = some .timeout))
    | .waitFallback _ => t.seq = .idle ∧ t.status = some .success

/-- CUR_MODE changes only at the end of a SET_MODE whose wait returned Success, and never back to Unknown; there, whatever
CUR_MODE was, it becomes the mode of the target (R140, R151). Codes above 3 are no targets, and under the invariant TGT holds none
of them there. -/
def Obligations.OnlySuccessfulSetModeChangesCurMode : Prop :=
  ∀ s t : State, step s = .next t →
    (t.curMode ≠ s.curMode →
      (s.seq = .waitAux .setMode ∨ s.seq = .waitFallback .setMode) ∧ t.seq = .idle ∧ t.status = some .success) ∧
    ((s.seq = .waitAux .setMode ∨ s.seq = .waitFallback .setMode) → t.seq = .idle → t.status = some .success →
      t.curMode ≠ .unknown ∧ ∃ c : Byte, s.tgt = some c ∧ (c.toNat < 4 → modeOf c = some t.curMode) ∧
        (Inv s → c.toNat < 4))

/-- The lines change only in phase ASSERT of a SET_MODE, when both are wired (R33, R136). -/
def Obligations.LinesChangeOnlyInAssert : Prop :=
  ∀ s t : State, step s = .next t → (t.m0 ≠ s.m0 ∨ t.m1 ≠ s.m1) →
    s.seq = .assert ∧ s.params.hasM0 = true ∧ s.params.hasM1 = true ∧ t.seq = .settle2

/-- TGT is written only when a SET_MODE is accepted, the wait latches only on entry to WAIT_AUX (R31, R32). -/
def Obligations.TargetAndWaitLatchesAreWrittenOnEntryOnly : Prop :=
  ∀ s t : State, step s = .next t →
    (t.tgt ≠ s.tgt → s.seq = .idle ∧ t.seq = .settle1) ∧
    (t.latches ≠ s.latches → ∃ o : Origin, t.seq = .waitAux o ∧ s.seq ≠ .waitAux o)

/-- STATUS is written only by the step that ends an operation, and every busy sequencer that comes to IDLE has written Success,
Timeout or InvalidParameter (R34, R171, D31). -/
def Obligations.StatusIsWrittenAtTheEndOnly : Prop :=
  ∀ s t : State, step s = .next t →
    (t.status ≠ s.status → t.seq = .idle) ∧
    (s.seq ≠ .idle → t.seq = .idle →
      t.status = some .success ∨ t.status = some .timeout ∨ t.status = some .invalidParameter)

/-- While SET_MODE or WAIT_READY runs, no result port changes; and no step ever writes an operand port (BUF_IN among them) or
a parameter (R20, R85, R179). -/
def Obligations.RunningOperationsTouchNoPort : Prop :=
  ∀ s t : State, step s = .next t →
    t.params = s.params ∧ t.ports = s.ports ∧ (s.seq ≠ .idle → t.results = s.results) ∧
    ∀ k : Nat, Memory.read t.ports.bufIn k = Memory.read s.ports.bufIn k

/-- The record of events only grows, and what a step adds is what the pseudocode does in that phase, in its order (R58(b),
R131, R139, R144, R146, R147): a settle hold and then the reading of T0, two drives in either order (decision D16), the sample
and then, only if it was 0, one reading (decision D18), the fallback hold, the reading of T0 when WAIT_READY is accepted, and
otherwise nothing. The record itself is the model's own (log 7). -/
def Obligations.EventsAreAppendedInPseudocodeOrder : Prop :=
  ∀ s t : State, step s = .next t →
    ∃ new : List Event, t.events = s.events ++ new ∧
      match s.seq with
      | .idle => new = if t.seq = .waitAux .waitReady then [.clock t.clock] else []
      | .settle1 => new = [.hold s.params.settleMs]
      | .assert =>
        if t.seq = .settle2 ∧ s.params.hasM0 = true then
          ∃ c : Byte, s.tgt = some c ∧
            (new = [.drive .m0 (c.getLsbD 0), .drive .m1 (c.getLsbD 1)] ∨
              new = [.drive .m1 (c.getLsbD 1), .drive .m0 (c.getLsbD 0)])
        else new = []
      | .settle2 => new = .hold s.params.settleMs :: if s.params.hasAux = true then [.clock t.clock] else []
      | .waitAux _ =>
        (new = [.sample true] ∧ t.seq = .idle ∧ t.status = some .success) ∨ new = [.sample false, .clock t.clock]
      | .waitFallback _ => new = [.hold s.params.fallbackMs]

/-! ## What the host reads -/

/-- The STATUS port (R34, R170): nothing while no operation has returned since reset; then the code of the last outcome, the
seventeen kinds numbered from 1 in the source's order, no two alike; and no code but those of the kinds the block returns. The
codes are the spec's decision D11 (log 18); that the port gives no reading before the first operation is log 24. -/
def Obligations.StatusPortShowsTheCodeOfTheLastOutcome : Prop :=
  (∀ s : State, s.status = none → hostReadsStatus s = none) ∧
  (∀ (s : State) (r : Status), s.status = some r →
    hostReadsStatus s = some (match r with
      | .success => 1
      | .unknown => 2
      | .notSupported => 3
      | .notImplemented => 4
      | .notInitialized => 5
      | .invalidParameter => 6
      | .dataSizeNotMatch => 7
      | .bufferTooSmall => 8
      | .timeout => 9
      | .hardwareError => 10
      | .headNotRecognized => 11
      | .noResponseFromDevice => 12
      | .wrongUartConfig => 13
      | .packetTooBig => 14
      | .jsonParseError => 15
      | .deinitFailed => 16
      | .wrongFormat => 17)) ∧
  (∀ s u : State, hostReadsStatus s = hostReadsStatus u → s.status = u.status) ∧
  ∀ s t : State, Inv s → step s = .next t → ∀ b : Byte, hostReadsStatus t = some b → b.toNat ∈ [1, 3, 6, 7, 9, 11, 17]

/-- The CUR_MODE port (R29): readable while the sequencer is idle; 0 Normal, 1 WorTx, 2 PowerSaving, 3 Configuration, 7 Unknown,
and never 4, 5 or 6; a mode reads as its own target code. The codes are the spec's decision D12 (log 18); that a busy block
gives no reading is log 24. -/
def Obligations.ModePortIsReadWhileIdle : Prop :=
  (∀ s : State, s.seq = .idle →
    hostReadsMode s = some (match s.curMode with
      | .normal => 0
      | .worTx => 1
      | .powerSaving => 2
      | .configuration => 3
      | .unknown => 7)) ∧
  (∀ s : State, s.seq ≠ .idle → hostReadsMode s = none) ∧
  (∀ (s : State) (b : BitVec 3), hostReadsMode s = some b → b.toNat ∉ [4, 5, 6]) ∧
  ∀ (s : State) (t : Byte) (m : Mode), s.seq = .idle → modeOf t = some m →
    (s.curMode = m ↔ hostReadsMode s = some (BitVec.ofNat 3 t.toNat))

/-! ## Reset and the invariant -/

/-- Reset (R37, R200): CUR_MODE Unknown, SEQ IDLE, every latch, line, status and result `none` (all but
CUR_MODE the spec's decision D22, log 18). -/
def Obligations.ResetLeavesTheStatedValues : Prop :=
  State.reset.curMode = .unknown ∧ State.reset.seq = .idle ∧ State.reset.tgt = none ∧ State.reset.latches = none ∧
  State.reset.m0 = none ∧ State.reset.m1 = none ∧ State.reset.status = none ∧ State.reset.results.hdr = none ∧
  State.reset.results.cfg = none ∧ State.reset.results.info = none ∧ State.reset.results.bufOutLen = none ∧
  State.reset.results.freq = none ∧ ∀ i : Fin 11, State.reset.results.bufOut.get i = none

/-- The invariant holds at reset, for every value of the open parameters (log 2). -/
def Obligations.InvariantHoldsAtReset : Prop := Inv State.reset

/-- Every step keeps the invariant: the memory's canonical form, the clock's range, the latches of R144, the target latched
and asserted, the lines, BUF_OUT and BUF_OUT_LEN, and the statuses the block returns. -/
def Obligations.EveryStepKeepsTheInvariant : Prop :=
  ∀ s t : State, Inv s → step s = .next t → Inv t

/-- Under the invariant no step faults, and the one refusal is CHAN_FREQ with CHAN above 255 (R11, R163, R175): "No failure is
treated as fatal". -/
def Obligations.NoStepStopsUnderTheInvariant : Prop :=
  ∀ s : State, Inv s →
    (∃ t : State, step s = .next t) ∨
    (step s = .refused .channelOutOfDomain ∧ s.seq = .idle ∧ 255 < s.ports.chan ∧
      ∃ (w : Word) (arg : Byte), s.cmd = some w ∧ decode w = .ok (.chanFreq arg))

/-- In every state, one that no run reaches among them, a step answers a next state but for the two refusals of the spec: a
SET_MODE of a legal target at ASSERT with exactly one mode-select line wired (R137), and CHAN_FREQ with CHAN above 255 (R163).
It never faults (R175). Where ASSERT refuses is the model's choice (log 14); that an idle block answers is log 8. -/
def Obligations.StepsStopOnlyWhereTheSpecRefuses : Prop :=
  ∀ s : State,
    if (∃ t : Byte, s.seq = .assert ∧ s.tgt = some t ∧ t.toNat < 4) ∧ s.params.hasM0 ≠ s.params.hasM1 then
      step s = .refused .oneModeLineWired
    else if s.seq = .idle ∧ 255 < s.ports.chan ∧ ∃ (w : Word) (arg : Byte), s.cmd = some w ∧ decode w = .ok (.chanFreq arg) then
      step s = .refused .channelOutOfDomain
    else ∃ t : State, step s = .next t

/-- The latches hold a value, not `none`, in every phase that reads them (R11, R31, R32): TGT from the acceptance of a SET_MODE
to its end, T0, DEADLINE and OVF in WAIT_AUX. So no step reads `none`. How the state shows it is the model's choice
(log 12). -/
def Obligations.LatchesHoldAValueWhereTheyAreRead : Prop :=
  ∀ s : State,
    (s.seq.inSetMode = true → ∃ t : Byte, s.tgt = some t) ∧
    ∀ o : Origin, s.seq = .waitAux o → ∃ l : Latches, s.latches = some l

/-- The address map of the two frames (R51): byte 3 + k of a configuration frame is register REG_CFG_BASE + k for k = 0 .. 7, of
a module-information frame REG_PID_BASE + k for k = 0 .. 2, whatever the base, without wrap; bytes 0 to 2 and bytes past the
frame are no register. -/
def Obligations.FrameBytesCarryTheRegistersOfTheirBlock : Prop :=
  ∀ p : Params,
    (∀ k < 8, registerInFrame p.regCfgBase Config.cfgFrameLen (3 + k) = some (p.regCfgBase.toNat + k)) ∧
    (∀ k < 3, registerInFrame p.regPidBase Config.infoFrameLen (3 + k) = some (p.regPidBase.toNat + k)) ∧
    (∀ i : Nat, i < 3 ∨ 11 ≤ i → registerInFrame p.regCfgBase Config.cfgFrameLen i = none) ∧
    ∀ i : Nat, i < 3 ∨ 6 ≤ i → registerInFrame p.regPidBase Config.infoFrameLen i = none
end

