-- ==== Sys2Proof/Laws/State.lean ====
section
/-!
SUPPORT. One lemma per field per named update of the state, so that no proof unfolds a record update.
-/

namespace Sys2Proof.Machine

variable (s : State) (r : Status) (e : Event) (d : Nat) (v : Bool)
variable (t : Byte) (ot : Option Byte) (w : Waiter) (l : Latches) (ol : Option Latches)

@[simp] theorem Waiter.origin_setMode : (Waiter.setMode t).origin = .setMode := rfl
@[simp] theorem Waiter.origin_waitReady : (Waiter.waitReady ot).origin = .waitReady := rfl
@[simp] theorem Waiter.tgt_setMode : (Waiter.setMode t).tgt = some t := rfl
@[simp] theorem Waiter.tgt_waitReady : (Waiter.waitReady ot).tgt = ot := rfl

@[simp] theorem Sequencer.phase_idle : (Sequencer.idle ot ol).phase = .idle := rfl
@[simp] theorem Sequencer.phase_settle1 : (Sequencer.settle1 t ol).phase = .settle1 := rfl
@[simp] theorem Sequencer.phase_assert : (Sequencer.assert t ol).phase = .assert := rfl
@[simp] theorem Sequencer.phase_settle2 : (Sequencer.settle2 t ol).phase = .settle2 := rfl
@[simp] theorem Sequencer.phase_waitAux : (Sequencer.waitAux w l).phase = .waitAux w.origin := rfl
@[simp] theorem Sequencer.phase_waitFallback : (Sequencer.waitFallback w ol).phase = .waitFallback w.origin := rfl

@[simp] theorem Sequencer.tgt_idle : (Sequencer.idle ot ol).tgt = ot := rfl
@[simp] theorem Sequencer.tgt_settle1 : (Sequencer.settle1 t ol).tgt = some t := rfl
@[simp] theorem Sequencer.tgt_assert : (Sequencer.assert t ol).tgt = some t := rfl
@[simp] theorem Sequencer.tgt_settle2 : (Sequencer.settle2 t ol).tgt = some t := rfl
@[simp] theorem Sequencer.tgt_waitAux : (Sequencer.waitAux w l).tgt = w.tgt := rfl
@[simp] theorem Sequencer.tgt_waitFallback : (Sequencer.waitFallback w ol).tgt = w.tgt := rfl

@[simp] theorem Sequencer.latches_idle : (Sequencer.idle ot ol).latches = ol := rfl
@[simp] theorem Sequencer.latches_settle1 : (Sequencer.settle1 t ol).latches = ol := rfl
@[simp] theorem Sequencer.latches_assert : (Sequencer.assert t ol).latches = ol := rfl
@[simp] theorem Sequencer.latches_settle2 : (Sequencer.settle2 t ol).latches = ol := rfl
@[simp] theorem Sequencer.latches_waitAux : (Sequencer.waitAux w l).latches = some l := rfl
@[simp] theorem Sequencer.latches_waitFallback : (Sequencer.waitFallback w ol).latches = ol := rfl

/-! SEQ, TGT and the wait latches of a state written out, as a record update gives it. -/

section
variable (p : Params) (c : Option Word) (po : Ports) (re : Results) (st : Option Status) (m : Mode) (q : Sequencer)
variable (a b : Option Bool) (k n : Nat) (x y : List Bool) (z : List Nat) (ev : List Event)

@[simp] theorem State.seq_mk : (State.mk p c po re st m q a b k x z y n ev).seq = q.phase := rfl
@[simp] theorem State.tgt_mk : (State.mk p c po re st m q a b k x z y n ev).tgt = q.tgt := rfl
@[simp] theorem State.latches_mk : (State.mk p c po re st m q a b k x z y n ev).latches = q.latches := rfl

end

@[simp] theorem takeCommand_params : (takeCommand s).params = s.params := rfl
@[simp] theorem takeCommand_cmd : (takeCommand s).cmd = none := rfl
@[simp] theorem takeCommand_ports : (takeCommand s).ports = s.ports := rfl
@[simp] theorem takeCommand_results : (takeCommand s).results = s.results := rfl
@[simp] theorem takeCommand_status : (takeCommand s).status = s.status := rfl
@[simp] theorem takeCommand_curMode : (takeCommand s).curMode = s.curMode := rfl
@[simp] theorem takeCommand_sequencer : (takeCommand s).sequencer = s.sequencer := rfl
@[simp] theorem takeCommand_seq : (takeCommand s).seq = s.seq := rfl
@[simp] theorem takeCommand_tgt : (takeCommand s).tgt = s.tgt := rfl
@[simp] theorem takeCommand_latches : (takeCommand s).latches = s.latches := rfl
@[simp] theorem takeCommand_m0 : (takeCommand s).m0 = s.m0 := rfl
@[simp] theorem takeCommand_m1 : (takeCommand s).m1 = s.m1 := rfl
@[simp] theorem takeCommand_clock : (takeCommand s).clock = s.clock := rfl
@[simp] theorem takeCommand_auxIn : (takeCommand s).auxIn = s.auxIn := rfl
@[simp] theorem takeCommand_elapsedIn : (takeCommand s).elapsedIn = s.elapsedIn := rfl
@[simp] theorem takeCommand_orderIn : (takeCommand s).orderIn = s.orderIn := rfl
@[simp] theorem takeCommand_draws : (takeCommand s).draws = s.draws := rfl
@[simp] theorem takeCommand_events : (takeCommand s).events = s.events := rfl

@[simp] theorem returnStatus_params : (returnStatus r s).params = s.params := rfl
@[simp] theorem returnStatus_cmd : (returnStatus r s).cmd = s.cmd := rfl
@[simp] theorem returnStatus_ports : (returnStatus r s).ports = s.ports := rfl
@[simp] theorem returnStatus_results : (returnStatus r s).results = s.results := rfl
@[simp] theorem returnStatus_status : (returnStatus r s).status = some r := rfl
@[simp] theorem returnStatus_curMode : (returnStatus r s).curMode = s.curMode := rfl
@[simp] theorem returnStatus_sequencer : (returnStatus r s).sequencer = .idle s.tgt s.latches := rfl
@[simp] theorem returnStatus_seq : (returnStatus r s).seq = .idle := rfl
@[simp] theorem returnStatus_tgt : (returnStatus r s).tgt = s.tgt := rfl
@[simp] theorem returnStatus_latches : (returnStatus r s).latches = s.latches := rfl
@[simp] theorem returnStatus_m0 : (returnStatus r s).m0 = s.m0 := rfl
@[simp] theorem returnStatus_m1 : (returnStatus r s).m1 = s.m1 := rfl
@[simp] theorem returnStatus_clock : (returnStatus r s).clock = s.clock := rfl
@[simp] theorem returnStatus_auxIn : (returnStatus r s).auxIn = s.auxIn := rfl
@[simp] theorem returnStatus_elapsedIn : (returnStatus r s).elapsedIn = s.elapsedIn := rfl
@[simp] theorem returnStatus_orderIn : (returnStatus r s).orderIn = s.orderIn := rfl
@[simp] theorem returnStatus_draws : (returnStatus r s).draws = s.draws := rfl
@[simp] theorem returnStatus_events : (returnStatus r s).events = s.events := rfl

@[simp] theorem logEvent_params : (logEvent e s).params = s.params := rfl
@[simp] theorem logEvent_cmd : (logEvent e s).cmd = s.cmd := rfl
@[simp] theorem logEvent_ports : (logEvent e s).ports = s.ports := rfl
@[simp] theorem logEvent_results : (logEvent e s).results = s.results := rfl
@[simp] theorem logEvent_status : (logEvent e s).status = s.status := rfl
@[simp] theorem logEvent_curMode : (logEvent e s).curMode = s.curMode := rfl
@[simp] theorem logEvent_sequencer : (logEvent e s).sequencer = s.sequencer := rfl
@[simp] theorem logEvent_seq : (logEvent e s).seq = s.seq := rfl
@[simp] theorem logEvent_tgt : (logEvent e s).tgt = s.tgt := rfl
@[simp] theorem logEvent_latches : (logEvent e s).latches = s.latches := rfl
@[simp] theorem logEvent_m0 : (logEvent e s).m0 = s.m0 := rfl
@[simp] theorem logEvent_m1 : (logEvent e s).m1 = s.m1 := rfl
@[simp] theorem logEvent_clock : (logEvent e s).clock = s.clock := rfl
@[simp] theorem logEvent_auxIn : (logEvent e s).auxIn = s.auxIn := rfl
@[simp] theorem logEvent_elapsedIn : (logEvent e s).elapsedIn = s.elapsedIn := rfl
@[simp] theorem logEvent_orderIn : (logEvent e s).orderIn = s.orderIn := rfl
@[simp] theorem logEvent_draws : (logEvent e s).draws = s.draws := rfl
@[simp] theorem logEvent_events : (logEvent e s).events = s.events ++ [e] := rfl

@[simp] theorem hold_params : (hold d s).params = s.params := rfl
@[simp] theorem hold_cmd : (hold d s).cmd = s.cmd := rfl
@[simp] theorem hold_ports : (hold d s).ports = s.ports := rfl
@[simp] theorem hold_results : (hold d s).results = s.results := rfl
@[simp] theorem hold_status : (hold d s).status = s.status := rfl
@[simp] theorem hold_curMode : (hold d s).curMode = s.curMode := rfl
@[simp] theorem hold_sequencer : (hold d s).sequencer = s.sequencer := rfl
@[simp] theorem hold_seq : (hold d s).seq = s.seq := rfl
@[simp] theorem hold_tgt : (hold d s).tgt = s.tgt := rfl
@[simp] theorem hold_latches : (hold d s).latches = s.latches := rfl
@[simp] theorem hold_m0 : (hold d s).m0 = s.m0 := rfl
@[simp] theorem hold_m1 : (hold d s).m1 = s.m1 := rfl
@[simp] theorem hold_clock : (hold d s).clock = s.clock := rfl
@[simp] theorem hold_auxIn : (hold d s).auxIn = s.auxIn := rfl
@[simp] theorem hold_elapsedIn : (hold d s).elapsedIn = s.elapsedIn := rfl
@[simp] theorem hold_orderIn : (hold d s).orderIn = s.orderIn := rfl
@[simp] theorem hold_draws : (hold d s).draws = s.draws := rfl
@[simp] theorem hold_events : (hold d s).events = s.events ++ [.hold d] := rfl

@[simp] theorem drive_m0_params : (drive .m0 v s).params = s.params := rfl
@[simp] theorem drive_m0_cmd : (drive .m0 v s).cmd = s.cmd := rfl
@[simp] theorem drive_m0_ports : (drive .m0 v s).ports = s.ports := rfl
@[simp] theorem drive_m0_results : (drive .m0 v s).results = s.results := rfl
@[simp] theorem drive_m0_status : (drive .m0 v s).status = s.status := rfl
@[simp] theorem drive_m0_curMode : (drive .m0 v s).curMode = s.curMode := rfl
@[simp] theorem drive_m0_sequencer : (drive .m0 v s).sequencer = s.sequencer := rfl
@[simp] theorem drive_m0_seq : (drive .m0 v s).seq = s.seq := rfl
@[simp] theorem drive_m0_tgt : (drive .m0 v s).tgt = s.tgt := rfl
@[simp] theorem drive_m0_latches : (drive .m0 v s).latches = s.latches := rfl
@[simp] theorem drive_m0_m0 : (drive .m0 v s).m0 = some v := rfl
@[simp] theorem drive_m0_m1 : (drive .m0 v s).m1 = s.m1 := rfl
@[simp] theorem drive_m0_clock : (drive .m0 v s).clock = s.clock := rfl
@[simp] theorem drive_m0_auxIn : (drive .m0 v s).auxIn = s.auxIn := rfl
@[simp] theorem drive_m0_elapsedIn : (drive .m0 v s).elapsedIn = s.elapsedIn := rfl
@[simp] theorem drive_m0_orderIn : (drive .m0 v s).orderIn = s.orderIn := rfl
@[simp] theorem drive_m0_draws : (drive .m0 v s).draws = s.draws := rfl
@[simp] theorem drive_m0_events : (drive .m0 v s).events = s.events ++ [.drive .m0 v] := rfl

@[simp] theorem drive_m1_params : (drive .m1 v s).params = s.params := rfl
@[simp] theorem drive_m1_cmd : (drive .m1 v s).cmd = s.cmd := rfl
@[simp] theorem drive_m1_ports : (drive .m1 v s).ports = s.ports := rfl
@[simp] theorem drive_m1_results : (drive .m1 v s).results = s.results := rfl
@[simp] theorem drive_m1_status : (drive .m1 v s).status = s.status := rfl
@[simp] theorem drive_m1_curMode : (drive .m1 v s).curMode = s.curMode := rfl
@[simp] theorem drive_m1_sequencer : (drive .m1 v s).sequencer = s.sequencer := rfl
@[simp] theorem drive_m1_seq : (drive .m1 v s).seq = s.seq := rfl
@[simp] theorem drive_m1_tgt : (drive .m1 v s).tgt = s.tgt := rfl
@[simp] theorem drive_m1_latches : (drive .m1 v s).latches = s.latches := rfl
@[simp] theorem drive_m1_m0 : (drive .m1 v s).m0 = s.m0 := rfl
@[simp] theorem drive_m1_m1 : (drive .m1 v s).m1 = some v := rfl
@[simp] theorem drive_m1_clock : (drive .m1 v s).clock = s.clock := rfl
@[simp] theorem drive_m1_auxIn : (drive .m1 v s).auxIn = s.auxIn := rfl
@[simp] theorem drive_m1_elapsedIn : (drive .m1 v s).elapsedIn = s.elapsedIn := rfl
@[simp] theorem drive_m1_orderIn : (drive .m1 v s).orderIn = s.orderIn := rfl
@[simp] theorem drive_m1_draws : (drive .m1 v s).draws = s.draws := rfl
@[simp] theorem drive_m1_events : (drive .m1 v s).events = s.events ++ [.drive .m1 v] := rfl

@[simp] theorem afterSample_params : (afterSample s).params = s.params := rfl
@[simp] theorem afterSample_cmd : (afterSample s).cmd = s.cmd := rfl
@[simp] theorem afterSample_ports : (afterSample s).ports = s.ports := rfl
@[simp] theorem afterSample_results : (afterSample s).results = s.results := rfl
@[simp] theorem afterSample_status : (afterSample s).status = s.status := rfl
@[simp] theorem afterSample_curMode : (afterSample s).curMode = s.curMode := rfl
@[simp] theorem afterSample_sequencer : (afterSample s).sequencer = s.sequencer := rfl
@[simp] theorem afterSample_seq : (afterSample s).seq = s.seq := rfl
@[simp] theorem afterSample_tgt : (afterSample s).tgt = s.tgt := rfl
@[simp] theorem afterSample_latches : (afterSample s).latches = s.latches := rfl
@[simp] theorem afterSample_m0 : (afterSample s).m0 = s.m0 := rfl
@[simp] theorem afterSample_m1 : (afterSample s).m1 = s.m1 := rfl
@[simp] theorem afterSample_clock : (afterSample s).clock = s.clock := rfl
@[simp] theorem afterSample_auxIn : (afterSample s).auxIn = s.auxIn.tail := rfl
@[simp] theorem afterSample_elapsedIn : (afterSample s).elapsedIn = s.elapsedIn := rfl
@[simp] theorem afterSample_orderIn : (afterSample s).orderIn = s.orderIn := rfl
@[simp] theorem afterSample_draws : (afterSample s).draws = s.draws + 1 := rfl
@[simp] theorem afterSample_events : (afterSample s).events = s.events ++ [.sample (auxLevel s)] := rfl

@[simp] theorem afterReading_params : (afterReading s).params = s.params := rfl
@[simp] theorem afterReading_cmd : (afterReading s).cmd = s.cmd := rfl
@[simp] theorem afterReading_ports : (afterReading s).ports = s.ports := rfl
@[simp] theorem afterReading_results : (afterReading s).results = s.results := rfl
@[simp] theorem afterReading_status : (afterReading s).status = s.status := rfl
@[simp] theorem afterReading_curMode : (afterReading s).curMode = s.curMode := rfl
@[simp] theorem afterReading_sequencer : (afterReading s).sequencer = s.sequencer := rfl
@[simp] theorem afterReading_seq : (afterReading s).seq = s.seq := rfl
@[simp] theorem afterReading_tgt : (afterReading s).tgt = s.tgt := rfl
@[simp] theorem afterReading_latches : (afterReading s).latches = s.latches := rfl
@[simp] theorem afterReading_m0 : (afterReading s).m0 = s.m0 := rfl
@[simp] theorem afterReading_m1 : (afterReading s).m1 = s.m1 := rfl
@[simp] theorem afterReading_clock : (afterReading s).clock = clockReading s := rfl
@[simp] theorem afterReading_auxIn : (afterReading s).auxIn = s.auxIn := rfl
@[simp] theorem afterReading_elapsedIn : (afterReading s).elapsedIn = s.elapsedIn.tail := rfl
@[simp] theorem afterReading_orderIn : (afterReading s).orderIn = s.orderIn := rfl
@[simp] theorem afterReading_draws : (afterReading s).draws = s.draws + 1 := rfl
@[simp] theorem afterReading_events : (afterReading s).events = s.events ++ [.clock (clockReading s)] := rfl

/-! SEQ, TGT and the latches folded back, and read off a known sequencer. -/

@[simp] theorem State.sequencer_phase : s.sequencer.phase = s.seq := rfl
@[simp] theorem State.sequencer_tgt : s.sequencer.tgt = s.tgt := rfl
@[simp] theorem State.sequencer_latches : s.sequencer.latches = s.latches := rfl

theorem State.seq_of {s : State} {q : Sequencer} (h : s.sequencer = q) : s.seq = q.phase := h ▸ rfl
theorem State.tgt_of {s : State} {q : Sequencer} (h : s.sequencer = q) : s.tgt = q.tgt := h ▸ rfl
theorem State.latches_of {s : State} {q : Sequencer} (h : s.sequencer = q) : s.latches = q.latches := h ▸ rfl

/-! The sequencer from its phase and the latches the phase holds. -/

variable {s} {t} {l}

theorem sequencer_of_idle (h : s.seq = .idle) : s.sequencer = .idle s.tgt s.latches := by
  simp only [State.seq, State.tgt, State.latches] at *
  cases hq : s.sequencer <;> simp_all

theorem sequencer_of_settle1 (h : s.seq = .settle1) : ∃ t, s.sequencer = .settle1 t s.latches := by
  simp only [State.seq, State.latches] at *
  cases hq : s.sequencer <;> simp_all

theorem sequencer_of_assert (h : s.seq = .assert) (ht : s.tgt = some t) : s.sequencer = .assert t s.latches := by
  simp only [State.seq, State.tgt, State.latches] at *
  cases hq : s.sequencer <;> simp_all

theorem sequencer_of_settle2 (h : s.seq = .settle2) : ∃ t, s.sequencer = .settle2 t s.latches := by
  simp only [State.seq, State.latches] at *
  cases hq : s.sequencer <;> simp_all

theorem sequencer_of_waitAux {o : Origin} (h : s.seq = .waitAux o) (hl : s.latches = some l) :
    ∃ w : Waiter, w.origin = o ∧ w.tgt = s.tgt ∧ s.sequencer = .waitAux w l := by
  simp only [State.seq, State.tgt, State.latches] at *
  cases hq : s.sequencer <;> simp_all

theorem sequencer_of_waitFallback {o : Origin} (h : s.seq = .waitFallback o) :
    ∃ w : Waiter, w.origin = o ∧ w.tgt = s.tgt ∧ s.sequencer = .waitFallback w s.latches := by
  simp only [State.seq, State.tgt, State.latches] at *
  cases hq : s.sequencer <;> simp_all

/-- An operation that ends on an idle sequencer leaves the sequencer as it is. -/
theorem returnStatus_idle (h : s.seq = .idle) (r : Status) : returnStatus r s = { s with status := some r } := by
  rw [returnStatus, ← sequencer_of_idle h]

/-- A wait of a SET_MODE with a given TGT. -/
theorem Waiter.eq_setMode {w : Waiter} (ho : w.origin = .setMode) (ht : w.tgt = some t) : w = .setMode t := by
  cases w <;> simp_all

@[simp] theorem auxLevel_hold : auxLevel (hold d s) = auxLevel s := rfl
@[simp] theorem clockReading_hold : clockReading (hold d s) = clockReading s := rfl

end Sys2Proof.Machine
end

