-- ==== Sys2Proof/Laws/Codec.lean ====
section
/-!
SUPPORT. The packed bytes and the extracted fields as arithmetic on numbers, so that a round trip is arithmetic; and each
codec operation on an idle sequencer as one equation.
-/

namespace Sys2Proof.Machine

/-- A whole-byte operand, as a number. -/
@[simp] theorem byteOf_toNat (v : Nat) : (byteOf v).toNat = v % 256 := by simp [byteOf]

/-- A field cut from a byte, as a number (R82). -/
@[simp] theorem extractField_toNat (b : Byte) (lo w : Nat) :
    (extractField b lo w).toNat = b.toNat / 2 ^ lo % 2 ^ w := by
  simp [extractField, BitVec.extractLsb'_toNat, Nat.shiftRight_eq_div_pow]

/-- Disjoint fields: their OR is their sum (R83), for SPEED. -/
theorem speed_or_eq_add : ∀ a < 8, ∀ b < 4, ∀ c < 8, (a <<< 5 ||| b <<< 3 ||| c <<< 0) = a * 32 + b * 8 + c := by decide

/-- The same for OPTION. -/
theorem option_or_eq_add : ∀ a < 4, ∀ b < 2, ∀ c < 4, (a <<< 6 ||| b <<< 5 ||| c <<< 0) = a * 64 + b * 32 + c := by decide

/-- The same for TRANS_MODE. -/
theorem transMode_or_eq_add : ∀ a < 2, ∀ b < 2, ∀ c < 2, ∀ d < 8,
    (a <<< 7 ||| b <<< 6 ||| c <<< 4 ||| d <<< 0) = a * 128 + b * 64 + c * 16 + d := by decide

/-- Byte 5 as a number. -/
theorem packSpeed_toNat (c : CfgOperand) :
    (packSpeed c).toNat = c.baud % 8 * 32 + c.parity % 4 * 8 + c.airRate % 8 := by
  have h := speed_or_eq_add (c.baud % 8) (by omega) (c.parity % 4) (by omega) (c.airRate % 8) (by omega)
  simp only [packSpeed, byteOf_toNat, insertField, Nat.reducePow, h]
  omega

/-- Byte 6 as a number. -/
theorem packOption_toNat (c : CfgOperand) :
    (packOption c).toNat = c.subpkt % 4 * 64 + c.rssiNoise % 2 * 32 + c.power % 4 := by
  have h := option_or_eq_add (c.subpkt % 4) (by omega) (c.rssiNoise % 2) (by omega) (c.power % 4) (by omega)
  simp only [packOption, byteOf_toNat, insertField, Nat.reducePow, h]
  omega

/-- Byte 8 as a number. -/
theorem packTransMode_toNat (c : CfgOperand) :
    (packTransMode c).toNat = c.rssiEn % 2 * 128 + c.fixed % 2 * 64 + c.lbt % 2 * 16 + c.wor % 8 := by
  have h := transMode_or_eq_add (c.rssiEn % 2) (by omega) (c.fixed % 2) (by omega) (c.lbt % 2) (by omega)
    (c.wor % 8) (by omega)
  simp only [packTransMode, byteOf_toNat, insertField, Nat.reducePow, h]
  omega

end Sys2Proof.Machine
end

