-- ==== Sys2Proof/Laws/Encoding.lean ====
section
/-!
SUPPORT. OP and ARG of a command word as arithmetic: a command word is OP times 256 plus ARG, and either part is read back.
-/

namespace Sys2Proof

/-- Two bytes joined, as a number. -/
theorem append_toNat (op arg : Byte) : (op ++ arg : Word).toNat = op.toNat * 256 + arg.toNat := by
  have harg := arg.isLt
  have happend : (op ++ arg : Word).toNat = (op.toNat <<< 8) ||| arg.toNat := BitVec.toNat_append op arg
  rw [happend, Nat.shiftLeft_eq, Nat.mul_comm, ← Nat.two_pow_add_eq_or_of_lt harg]

/-- OP as a number. -/
theorem opOf_toNat (w : Word) : (opOf w).toNat = w.toNat / 256 := by
  have := w.isLt
  simp only [opOf, BitVec.extractLsb'_toNat, Nat.shiftRight_eq_div_pow]
  omega

/-- ARG as a number. -/
theorem argOf_toNat (w : Word) : (argOf w).toNat = w.toNat % 256 := by
  simp [argOf, BitVec.extractLsb'_toNat]

/-- OP of an encoded operation. -/
@[simp] theorem opOf_encode (i : Instr) : opOf (encode i) = opcode i := by
  apply BitVec.eq_of_toNat_eq
  have := (argument i).isLt
  rw [opOf_toNat, encode, append_toNat]
  omega

/-- ARG of an encoded operation. -/
@[simp] theorem argOf_encode (i : Instr) : argOf (encode i) = argument i := by
  apply BitVec.eq_of_toNat_eq
  have := (argument i).isLt
  rw [argOf_toNat, encode, append_toNat]
  omega

/-- A command word is its OP and its ARG joined. -/
theorem opOf_append_argOf (w : Word) : (opOf w ++ argOf w : Word) = w := by
  apply BitVec.eq_of_toNat_eq
  rw [append_toNat, opOf_toNat, argOf_toNat]
  omega

end Sys2Proof
end

