-- ==== Sys2Proof/Laws/Memory.lean ====
section
/-!
SUPPORT. BUF_IN: every write keeps the canonical form, a read after a write gives the byte written, a write leaves every
other index alone, and equal reads mean equal buffers.
-/

namespace Sys2Proof.Machine

/-- A buffer that is canonical from `lo` on is canonical from anything lower. -/
theorem risingFrom_mono {lo lo' : Nat} (h : lo' ≤ lo) {m : Memory} (hm : Memory.risingFrom lo m = true) :
    Memory.risingFrom lo' m = true := by
  cases m with
  | nil => rfl
  | cons c rest =>
    obtain ⟨a, b⟩ := c
    simp only [Memory.risingFrom, Bool.and_eq_true, decide_eq_true_eq] at hm ⊢
    exact ⟨⟨⟨by omega, hm.1.1.2⟩, hm.1.2⟩, hm.2⟩

/-- An index below the first one a canonical buffer may list reads 0. -/
theorem read_below {lo i : Nat} {m : Memory} (hm : Memory.risingFrom lo m = true) (hi : i < lo) :
    Memory.read m i = 0 := by
  induction m generalizing lo with
  | nil => rfl
  | cons c rest ih =>
    obtain ⟨a, b⟩ := c
    simp only [Memory.risingFrom, Bool.and_eq_true, decide_eq_true_eq] at hm
    have hne : i ≠ a := by omega
    simpa [Memory.read, hne] using ih hm.2 (by omega)

/-- `insert` keeps the canonical form. -/
theorem insert_rising {lo i : Nat} {v : Byte} {m : Memory} (hm : Memory.risingFrom lo m = true) (hlo : lo ≤ i)
    (hi : i < Config.bufInCapacity) : Memory.risingFrom lo (Memory.insert m i v) = true := by
  induction m generalizing lo with
  | nil =>
    unfold Memory.insert
    split
    · rfl
    · simp_all [Memory.risingFrom]
  | cons c rest ih =>
    obtain ⟨a, b⟩ := c
    simp only [Memory.risingFrom, Bool.and_eq_true, decide_eq_true_eq] at hm
    unfold Memory.insert
    split
    · split <;> simp_all [Memory.risingFrom]
    · split
      · split
        · exact risingFrom_mono (by omega) hm.2
        · simp_all [Memory.risingFrom]
      · have := ih hm.2 (by omega)
        simp_all [Memory.risingFrom]

/-- Reading after `insert`. -/
theorem read_insert {lo i j : Nat} {v : Byte} {m : Memory} (hm : Memory.risingFrom lo m = true) :
    Memory.read (Memory.insert m i v) j = if j = i then v else Memory.read m j := by
  induction m generalizing lo with
  | nil =>
    unfold Memory.insert
    split
    · simp_all [Memory.read]
    · simp [Memory.read]
  | cons c rest ih =>
    obtain ⟨a, b⟩ := c
    simp only [Memory.risingFrom, Bool.and_eq_true, decide_eq_true_eq] at hm
    unfold Memory.insert
    split
    · rename_i hia
      split
      · rename_i hv
        split
        · rename_i hji
          subst hji hv
          have hne : j ≠ a := by omega
          simpa [Memory.read, hne] using read_below (i := j) hm.2 (by omega)
        · rfl
      · simp [Memory.read]
    · rename_i hia
      split
      · rename_i hiaeq
        subst hiaeq
        split
        · rename_i hv
          by_cases hj : j = i
          · subst hj hv
            simpa using read_below hm.2 (Nat.lt_succ_self _)
          · simp [Memory.read, hj]
        · by_cases hj : j = i <;> simp [Memory.read, hj]
      · rename_i hne
        have hr := ih hm.2
        by_cases hj : j = a
        · subst hj
          simp [Memory.read, Ne.symm hne]
        · simp [Memory.read, hj, hr]

/-- The host's write keeps the canonical form. -/
theorem write_wf {m : Memory} (hm : Memory.wf m = true) (i : Nat) (v : Byte) :
    Memory.wf (Memory.write m i v) = true := by
  unfold Memory.write
  split
  · exact insert_rising hm (Nat.zero_le _) ‹_›
  · exact hm

/-- Presenting a frame keeps the canonical form. -/
theorem presentFrom_wf {m : Memory} (hm : Memory.wf m = true) (i : Nat) (vs : List Byte) :
    Memory.wf (Memory.presentFrom m i vs) = true := by
  induction vs generalizing m i with
  | nil => exact hm
  | cons v vs ih => exact ih (write_wf hm i v) (i + 1)

/-- A read after a write to the same index gives the byte written. -/
theorem read_write_same {m : Memory} (hm : Memory.wf m = true) {i : Nat} (hi : i < Config.bufInCapacity) (v : Byte) :
    Memory.read (Memory.write m i v) i = v := by
  simp [Memory.write, hi, read_insert hm]

/-- A write leaves every other index alone. -/
theorem read_write_other {m : Memory} (hm : Memory.wf m = true) {i j : Nat} (hij : j ≠ i) (v : Byte) :
    Memory.read (Memory.write m i v) j = Memory.read m j := by
  unfold Memory.write
  split
  · simp [read_insert hm, hij]
  · rfl

/-- Nothing is listed at reset, so the buffer is canonical there. -/
theorem reset_bufIn_wf : Memory.wf State.reset.ports.bufIn = true := rfl

end Sys2Proof.Machine
end

