-- ==== Sys2Proof/Laws/PerInstr.lean ====
section
/-!
SUPPORT. The family InTable, one lemma per operation: the command word of an operation lies in its row of
spec/opcode_table.json (its bits under the mask 0xFF00 are the row's match).
-/

namespace Sys2Proof.Laws.InTable

/-- The "match" column of spec/opcode_table.json. -/
def tableMatch : Instr → Word
  | .encCfg _ => 0x0100
  | .decCfg _ => 0x0200
  | .encInfo _ => 0x0300
  | .decInfo _ => 0x0400
  | .setMode _ => 0x1000
  | .waitReady _ => 0x1100
  | .hdrChk _ => 0x2000
  | .chanFreq _ => 0x2100

/-- The operation's command word lies in its row of the table. -/
def Statement (i : Instr) : Prop := encode i &&& 0xFF00 = tableMatch i

/-- An OP joined with any ARG, under the mask, is the OP alone. -/
theorem masked_append (op arg : Byte) : (op ++ arg : Word) &&& 0xFF00 = op ++ (0 : Byte) := by
  ext i hi
  simp only [BitVec.getElem_and, BitVec.getElem_append]
  have h : i < 16 := hi
  interval_cases i <;> simp

theorem encCfg (arg : Byte) : Statement (.encCfg arg) := (masked_append _ _).trans (by simp only [opcode, tableMatch]; decide)
theorem decCfg (n : Nat) : Statement (.decCfg n) := (masked_append _ _).trans (by simp only [opcode, tableMatch]; decide)
theorem encInfo (arg : Byte) : Statement (.encInfo arg) := (masked_append _ _).trans (by simp only [opcode, tableMatch]; decide)
theorem decInfo (n : Nat) : Statement (.decInfo n) := (masked_append _ _).trans (by simp only [opcode, tableMatch]; decide)
theorem setMode (t : Byte) : Statement (.setMode t) := (masked_append _ _).trans (by simp only [opcode, tableMatch]; decide)
theorem waitReady (arg : Byte) : Statement (.waitReady arg) := (masked_append _ _).trans (by simp only [opcode, tableMatch]; decide)
theorem hdrChk (arg : Byte) : Statement (.hdrChk arg) := (masked_append _ _).trans (by simp only [opcode, tableMatch]; decide)
theorem chanFreq (arg : Byte) : Statement (.chanFreq arg) := (masked_append _ _).trans (by simp only [opcode, tableMatch]; decide)

end Sys2Proof.Laws.InTable
end

