-- ==== Sys2Proof/Laws/Step.lean ====
section
/-!
SUPPORT. Once and for all what an operation, a phase and a step can do: an equation for each operation on an idle sequencer,
and `step_transition`, the inversion of `step` by named cases.
-/

namespace Sys2Proof.Machine

/-- `whenIdle` lets the outcome through on an idle sequencer. -/
theorem whenIdle_idle {s : State} (h : s.seq = .idle) (o : Outcome) : whenIdle s o = o := if_pos h

/-- `whenIdle` refuses on a busy one. -/
theorem whenIdle_busy {s : State} (h : s.seq ≠ .idle) (o : Outcome) : whenIdle s o = .refused .sequencerBusy := if_neg h

/-- An operation that answers a next state was accepted. -/
theorem whenIdle_next {s t : State} {o : Outcome} (h : whenIdle s o = .next t) : s.seq = .idle ∧ o = .next t := by
  by_cases hs : s.seq = .idle
  · exact ⟨hs, by rwa [whenIdle_idle hs] at h⟩
  · rw [whenIdle_busy hs] at h
    cases h

/-- Every operation is refused on a busy sequencer. -/
theorem exec_busy {s : State} (h : s.seq ≠ .idle) (i : Instr) : exec i s = .refused .sequencerBusy := by
  cases i <;> exact whenIdle_busy h _

/-- What a one-step operation leaves: only result ports and STATUS differ. -/
theorem exec_oneStep {i : Instr} {s t : State} (hi : i.isOneStep = true) (h : exec i s = .next t) :
    s.seq = .idle ∧ t = { s with results := t.results, status := t.status } := by
  cases i <;> simp only [Instr.isOneStep, Bool.false_eq_true] at hi <;>
    simp only [exec, execEncCfg, execDecCfg, execEncInfo, execDecInfo, execHdrChk, execChanFreq] at h <;>
    obtain ⟨hs, h⟩ := whenIdle_next h
  case chanFreq =>
    split at h
    · cases h
      exact ⟨hs, by simp [returnStatus_idle, hs]⟩
    · cases h
  all_goals
    cases h
    exact ⟨hs, by simp [returnStatus_idle, hs]⟩

/-- What an operation on an idle sequencer can do: a one-step operation, the start of a SET_MODE, the start of a wait. -/
theorem exec_cases {i : Instr} {s t : State} (h : exec i s = .next t) :
    s.seq = .idle ∧
      ((i.isOneStep = true ∧ t = { s with results := t.results, status := t.status }) ∨
        (∃ c, i = .setMode c ∧ t = { s with sequencer := .settle1 c s.latches }) ∨
        (∃ a, i = .waitReady a ∧ t = enterWait (.waitReady s.tgt) s)) := by
  by_cases hi : i.isOneStep = true
  · have hone := exec_oneStep hi h
    exact ⟨hone.1, .inl ⟨hi, hone.2⟩⟩
  · cases i <;> simp only [Instr.isOneStep, not_true_eq_false] at hi
    case setMode c =>
      obtain ⟨hs, h⟩ := whenIdle_next h
      cases h
      exact ⟨hs, .inr (.inl ⟨c, rfl, rfl⟩)⟩
    case waitReady a =>
      obtain ⟨hs, h⟩ := whenIdle_next h
      cases h
      exact ⟨hs, .inr (.inr ⟨a, rfl, rfl⟩)⟩

/-- What no operation writes in the step that accepts it. -/
theorem exec_frame {i : Instr} {s t : State} (h : exec i s = .next t) :
    t.params = s.params ∧ t.cmd = s.cmd ∧ t.ports = s.ports ∧ t.curMode = s.curMode ∧ t.m0 = s.m0 ∧ t.m1 = s.m1 := by
  obtain ⟨-, ⟨-, ht⟩ | ⟨c, -, ht⟩ | ⟨a, -, ht⟩⟩ := exec_cases h <;> rw [ht]
  · simp
  · simp
  · unfold enterWait
    split <;> simp

/-- A target code is no mode exactly from 4 on (R81, R88). -/
theorem modeOf_eq_none_iff (t : Byte) : modeOf t = none ↔ 4 ≤ t.toNat := by
  revert t
  decide

/-- No target code stands for Unknown (R142). -/
theorem modeOf_ne_unknown (t : Byte) : modeOf t ≠ some .unknown := by
  revert t
  decide

/-- For the code of a mode, that mode is recorded (R131). -/
theorem recordedMode_of_modeOf {t : Byte} {m : Mode} (h : modeOf t = some m) : recordedMode t = m := by
  simp [recordedMode, h]

/-- Whatever is recorded is one of the four modes (R29, R151). -/
theorem recordedMode_ne_unknown (t : Byte) : recordedMode t ≠ .unknown := by
  unfold recordedMode
  split
  · exact fun h => modeOf_ne_unknown t (h ▸ ‹_›)
  · unfold modeOfLines
    split <;> exact nofun

/-- The two drives leave the pattern on the lines and one of the two orders in the record. -/
theorem drivePair_eq (v0 v1 : Bool) (s : State) :
    drivePair v0 v1 s =
      { s with
        m0 := some v0
        m1 := some v1
        orderIn := s.orderIn.tail
        draws := s.draws + 1
        events := s.events ++
          (if m0DrivenFirst s then [.drive .m0 v0, .drive .m1 v1] else [.drive .m1 v1, .drive .m0 v0]) } := by
  unfold drivePair
  split <;> simp [drive, logEvent]

/-- What entry to a wait never writes. -/
theorem enterWait_frame (w : Waiter) (s : State) :
    (enterWait w s).params = s.params ∧ (enterWait w s).cmd = s.cmd ∧ (enterWait w s).ports = s.ports ∧
    (enterWait w s).results = s.results ∧ (enterWait w s).status = s.status ∧ (enterWait w s).curMode = s.curMode ∧
    (enterWait w s).tgt = w.tgt ∧ (enterWait w s).m0 = s.m0 ∧ (enterWait w s).m1 = s.m1 ∧
    (enterWait w s).auxIn = s.auxIn ∧ (enterWait w s).orderIn = s.orderIn := by
  unfold enterWait
  split <;> simp

/-- Entry to the wait with a busy line. -/
theorem enterWait_aux {s : State} (h : s.params.hasAux = true) (w : Waiter) :
    enterWait w s =
      { afterReading s with
        sequencer := .waitAux w (latchWait s.params.timeoutMs s.params.clkMod (clockReading s)) } := by
  simp [enterWait, h]

/-- Entry to the wait without one. -/
theorem enterWait_fallback {s : State} (h : s.params.hasAux = false) (w : Waiter) :
    enterWait w s = { s with sequencer := .waitFallback w s.latches } := by
  simp [enterWait, h]

/-- How a wait that went well ends: IDLE, Success, the target recorded if it was the wait of a SET_MODE. -/
theorem waitSucceeded_eq (w : Waiter) (s : State) :
    waitSucceeded w s =
      { s with
        sequencer := .idle s.tgt s.latches
        status := some .success
        curMode := match w with
          | .setMode t => recordedMode t
          | .waitReady _ => s.curMode } := by
  cases w <;> rfl

/-- A run begins with its first step. -/
theorem run_next {s t : State} (h : step s = .next t) (k : Nat) : run (k + 1) s = run k t := by
  have h' : core.step s = .next t := h
  simp only [run, Host.Core.run, h']
  rfl

/-- A run of no steps stays. -/
theorem run_zero (s : State) : run 0 s = .next s := rfl

/-- What every step keeps, every run keeps. -/
theorem run_keeps {P : State → Prop} (hstep : ∀ s t, P s → step s = .next t → P t) {k : Nat} {s t : State} (hs : P s)
    (h : run k s = .next t) : P t := by
  induction k generalizing s with
  | zero =>
    cases h
    exact hs
  | succ k ih =>
    cases hst : step s with
    | next u => exact ih (hstep s u hs hst) (by rwa [run_next hst] at h)
    | fault r =>
      have hcore : core.step s = .fault r := hst
      simp [run, Host.Core.run, hcore] at h
    | refused r =>
      have hcore : core.step s = .refused r := hst
      simp [run, Host.Core.run, hcore] at h

/-- A busy sequencer advances in its phase. -/
theorem step_busy {s : State} (h : s.seq ≠ .idle) : step s = advance s := by
  unfold step
  split
  · contradiction
  · rfl

/-- The step of SETTLE1 (R150, as the four below). -/
theorem step_settle1 {s : State} {c : Byte} {l : Option Latches} (h : s.sequencer = .settle1 c l) :
    step s = .next (endSettle1 c s) := by
  rw [step_busy (by simp [State.seq_of h]), advance, h]

/-- The step of ASSERT. -/
theorem step_assert {s : State} {c : Byte} {l : Option Latches} (h : s.sequencer = .assert c l) :
    step s = assertTarget c s := by
  rw [step_busy (by simp [State.seq_of h]), advance, h]

/-- The step of SETTLE2. -/
theorem step_settle2 {s : State} {c : Byte} {l : Option Latches} (h : s.sequencer = .settle2 c l) :
    step s = .next (endSettle2 c s) := by
  rw [step_busy (by simp [State.seq_of h]), advance, h]

/-- The step of WAIT_AUX. -/
theorem step_waitAux {s : State} {w : Waiter} {l : Latches} (h : s.sequencer = .waitAux w l) :
    step s = .next (pollAux w l s) := by
  rw [step_busy (by simp [State.seq_of h]), advance, h]

/-- The step of WAIT_FALLBACK. -/
theorem step_waitFallback {s : State} {w : Waiter} {l : Option Latches} (h : s.sequencer = .waitFallback w l) :
    step s = .next (endFallback w s) := by
  rw [step_busy (by simp [State.seq_of h]), advance, h]

/-- A poll that finds the line high. -/
theorem pollAux_high {s : State} (h : auxLevel s = true) (w : Waiter) (l : Latches) :
    pollAux w l s = waitSucceeded w (afterSample s) := by
  simp [pollAux, h]

/-- A poll that finds the line low. -/
theorem pollAux_low {s : State} (h : auxLevel s = false) (w : Waiter) (l : Latches) :
    pollAux w l s =
      if expired l (clockReading (afterSample s)) then returnStatus .timeout (afterReading (afterSample s))
      else afterReading (afterSample s) := by
  simp [pollAux, h]

/-- What a step can do. -/
inductive Transition (s t : State) : Prop where
  | waits (seq : s.seq = .idle) (cmd : s.cmd = none) (eq : t = s)
  | accepts (w : Word) (i : Instr) (seq : s.seq = .idle) (cmd : s.cmd = some w) (dec : decode w = .ok i)
      (eq : exec i (takeCommand s) = .next t)
  | rejects (w : Word) (e : DecodeError) (seq : s.seq = .idle) (cmd : s.cmd = some w) (dec : decode w = .error e)
      (eq : t = returnStatus .notSupported (takeCommand s))
  | settled1 (c : Byte) (l : Option Latches) (seq : s.sequencer = .settle1 c l) (eq : t = endSettle1 c s)
  | badTarget (c : Byte) (l : Option Latches) (seq : s.sequencer = .assert c l) (mode : modeOf c = none)
      (eq : t = returnStatus .invalidParameter s)
  | drives (c : Byte) (l : Option Latches) (m : Mode) (seq : s.sequencer = .assert c l) (mode : modeOf c = some m)
      (wired0 : s.params.hasM0 = true) (wired1 : s.params.hasM1 = true)
      (eq : t = { drivePair (targetM0 c) (targetM1 c) s with sequencer := .settle2 c l })
  | skips (c : Byte) (l : Option Latches) (m : Mode) (seq : s.sequencer = .assert c l) (mode : modeOf c = some m)
      (wired0 : s.params.hasM0 = false) (wired1 : s.params.hasM1 = false)
      (eq : t = { s with sequencer := .settle2 c l })
  | settled2 (c : Byte) (l : Option Latches) (seq : s.sequencer = .settle2 c l) (eq : t = endSettle2 c s)
  | pollReady (w : Waiter) (l : Latches) (seq : s.sequencer = .waitAux w l) (aux : auxLevel s = true)
      (eq : t = waitSucceeded w (afterSample s))
  | pollExpired (w : Waiter) (l : Latches) (seq : s.sequencer = .waitAux w l) (aux : auxLevel s = false)
      (exp : expired l (clockReading (afterSample s)) = true)
      (eq : t = returnStatus .timeout (afterReading (afterSample s)))
  | pollAgain (w : Waiter) (l : Latches) (seq : s.sequencer = .waitAux w l) (aux : auxLevel s = false)
      (exp : expired l (clockReading (afterSample s)) = false) (eq : t = afterReading (afterSample s))
  | fallback (w : Waiter) (l : Option Latches) (seq : s.sequencer = .waitFallback w l)
      (eq : t = waitSucceeded w (hold s.params.fallbackMs s))

/-- A step that answers a next state took one of the transitions. -/
theorem step_transition {s t : State} (h : step s = .next t) : Transition s t := by
  unfold step at h
  split at h
  · rename_i hs
    split at h
    · rename_i hc
      cases h
      exact .waits hs hc rfl
    · rename_i w hc
      split at h
      · rename_i i hd
        exact .accepts w i hs hc hd h
      · rename_i e hd
        cases h
        exact .rejects w e hs hc hd rfl
  · rename_i hidle
    unfold advance at h
    split at h
    · rename_i hs
      exact absurd (State.seq_of hs) hidle
    · rename_i c l hs
      cases h
      exact .settled1 c l hs rfl
    · rename_i c l hs
      unfold assertTarget at h
      have hl : s.latches = l := State.latches_of hs
      split at h
      · rename_i hm
        cases h
        exact .badTarget c l hs hm rfl
      · rename_i hm
        obtain ⟨m, hm⟩ := Option.ne_none_iff_exists'.mp hm
        rw [hl] at h
        split at h
        · rename_i h0 h1
          cases h
          exact .drives c l m hs hm h0 h1 rfl
        · rename_i h0 h1
          cases h
          exact .skips c l m hs hm h0 h1 rfl
        · cases h
    · rename_i c l hs
      cases h
      exact .settled2 c l hs rfl
    · rename_i w l hs
      cases h
      cases ha : auxLevel s with
      | true => exact .pollReady w l hs ha (pollAux_high ha w l)
      | false =>
        cases he : expired l (clockReading (afterSample s)) with
        | true => exact .pollExpired w l hs ha he (by simp [pollAux_low ha, he])
        | false => exact .pollAgain w l hs ha he (by simp [pollAux_low ha, he])
    · rename_i w l hs
      cases h
      exact .fallback w l hs rfl

/-- An operation on an idle sequencer answers a next state, but for CHAN_FREQ with CHAN above 255 (R163). -/
theorem exec_idle {s : State} (h : s.seq = .idle) (i : Instr) :
    (∃ t, exec i s = .next t) ∨ (∃ a, i = .chanFreq a) ∧ 255 < s.ports.chan ∧ exec i s = .refused .channelOutOfDomain := by
  cases i <;> simp only [exec, execEncCfg, execDecCfg, execEncInfo, execDecInfo, execSetMode, execWaitReady, execHdrChk,
    execChanFreq, whenIdle_idle h]
  case chanFreq a =>
    split
    · exact .inl ⟨_, rfl⟩
    · exact .inr ⟨⟨a, rfl⟩, by omega, rfl⟩
  all_goals exact .inl ⟨_, rfl⟩

end Sys2Proof.Machine
end

