-- ==== Sys2Proof/Machine/Presentation.lean ====
section
/-!
DEFINITION. What the field codes mean to a reader (30_encoding R75, 43_aux_functions R165): "a presentation concern layered
above the codec". No operation of the block reads any of it. The spec gives the code-to-value tables as general knowledge,
not from its source: every one is PRESUMED (log 25).
-/

namespace Sys2Proof.Machine

/-- SUBPKT: bytes of a sub-packet, in the source's listing order. -/
def subPacketBytes (code : BitVec 2) : Nat :=
  match code.toNat with
  | 0 => 200
  | 1 => 128
  | 2 => 64
  | _ => 32

/-- WOR: the wake-on-radio period in milliseconds. -/
def worPeriodMs (code : BitVec 3) : Nat := 500 * (code.toNat + 1)

/-- BAUD: the UART's rate in baud. -/
def uartBaud (code : BitVec 3) : Nat :=
  match code.toNat with
  | 0 => 1200
  | 1 => 2400
  | 2 => 4800
  | 3 => 9600
  | 4 => 19200
  | 5 => 38400
  | 6 => 57600
  | _ => 115200

/-- The UART's parity settings; two of the four codes mean none. -/
inductive UartParity where
  | none
  | odd
  | even
  deriving DecidableEq, Repr

/-- PARITY: 8N1, 8O1, 8E1, 8N1. -/
def uartParity (code : BitVec 2) : UartParity :=
  match code.toNat with
  | 1 => .odd
  | 2 => .even
  | _ => .none

/-- AIR_RATE: bits per second over the air. -/
def airBitsPerSecond (code : BitVec 3) : Nat :=
  match code.toNat with
  | 3 => 4800
  | 4 => 9600
  | 5 => 19200
  | 6 => 38400
  | 7 => 62500
  | _ => 2400

/-- POWER: dBm, by the power class of the model descriptor, which decides the enumeration (R165). -/
def powerDbm (powerClass : PowerClass) (code : BitVec 2) : Nat :=
  match powerClass, code.toNat with
  | .dbm22, 0 => 22
  | .dbm22, 1 => 17
  | .dbm22, 2 => 13
  | .dbm22, _ => 10
  | .dbm30, 0 => 30
  | .dbm30, 1 => 27
  | .dbm30, 2 => 24
  | .dbm30, _ => 21

/-- FIXED: 1 is fixed transmission, 0 transparent. -/
def isFixedTransmission (code : BitVec 1) : Bool := code == 1

/-- RSSI_NOISE, LBT and RSSI_EN: 1 is enabled. -/
def isEnabled (code : BitVec 1) : Bool := code == 1

end Sys2Proof.Machine
end

