-- ==== Sys2Proof/Tests/Slice0.lean ====
section
/-!
SUPPORT. Tests of the model against words and values written out from the spec (95_test_vectors unless another file is
named), and for every statement of Certificates/Slice0/Obligations.lean that has hypotheses a `witness_` theorem: a
concrete state and operands that meet them all.
-/

namespace Sys2Proof.Tests

open Sys2Proof Sys2Proof.Machine

/-! ## Helpers -/

/-- 95 section 2.4 and 2.7: all wired, TIMEOUT_MS 1000, CLK_MOD 2^30, the sample protocol bytes. -/
def testParams : Params where
  hasM0 := true
  hasM1 := true
  hasAux := true
  timeoutMs := 1000
  fallbackMs := 100
  settleMs := 7
  clkMod := 1073741824
  opcRead := 0xC1
  opcWritePersist := 0xC0
  opcWriteVolatile := 0xC2
  opcWrongFormat := 0xFF
  regCfgBase := 0x00
  regPidBase := 0x08
  baseFreq230 := 220
  baseFreq400 := 410
  baseFreq900 := 850

/-- No line wired at all (program P6). -/
def bareParams : Params := { testParams with hasM0 := false, hasM1 := false, hasAux := false }

/-- An idle block: CUR_MODE Normal, both lines low, the clock at 5000. -/
def idleState : State :=
  { State.reset with params := testParams, clock := 5000, curMode := .normal, m0 := some false, m1 := some false }

/-- The same block with nothing wired. -/
def bareState : State := { idleState with params := bareParams, m0 := none, m1 := none }

/-- In the middle of a SET_MODE t, at a phase before its wait. -/
def setModeAt (t : Byte) (p : Byte → Option Latches → Sequencer) : State := { idleState with sequencer := p t none }

/-- In the fallback wait. -/
def fallbackState (w : Waiter) : State := { bareState with sequencer := .waitFallback w none }

/-- In a poll loop whose T0 is 5000 (row W1). -/
def pollState (w : Waiter) (aux : List Bool) (elapsed : List Nat) : State :=
  { idleState with
    sequencer := .waitAux w { t0 := 5000, deadline := 6000, ovf := false }
    auxIn := aux
    elapsedIn := elapsed }

/-- The state an outcome goes on with. -/
def nextOf (o : Outcome) : Option State :=
  match o with
  | .next t => some t
  | .fault _ => none
  | .refused _ => none

/-- Whether an outcome is a given refusal. -/
def isRefused (r : Refusal) (o : Outcome) : Bool :=
  match o with
  | .next _ => false
  | .fault _ => false
  | .refused q => q == r

/-- A frame on BUF_IN. -/
def withFrame (frame : List Byte) (s : State) : State :=
  { s with ports := { s.ports with bufIn := Memory.presentFrom [] 0 frame } }

/-- Operands of row E2: every field at its maximum. -/
def maxCfg : CfgOperand := ⟨255, 255, 7, 3, 7, 3, 1, 3, 255, 7, 1, 1, 1, 255, 255⟩

/-- Operands of row E5: every field too wide. -/
def wideCfg : CfgOperand := ⟨300, 511, 10, 5, 9, 6, 3, 7, 279, 13, 2, 3, 5, 256, 1000⟩

/-- Operands of row E7. -/
def mixedCfg : CfgOperand := ⟨0xA5, 0x5A, 4, 3, 4, 1, 1, 1, 0x12, 5, 1, 0, 1, 0xAB, 0xCD⟩

/-- An idle block with operands for the encoders of the configuration frame. -/
def encState (h : HdrOperand) (c : CfgOperand) : State :=
  { idleState with ports := { idleState.ports with hdr := h, cfg := c } }

/-- The bytes of row E7. -/
def mixedFrame : List Byte := [0xC1, 0x00, 0x08, 0xA5, 0x5A, 0x9C, 0x61, 0x12, 0x95, 0xAB, 0xCD]

/-- The bytes of row DC2. -/
def validFrame : List Byte := [0xC1, 0x00, 0x08, 0x12, 0x34, 0xE5, 0xE3, 0x41, 0xD7, 0x00, 0x00]

/-- The bytes of row I1. -/
def infoFrame : List Byte := [0xC1, 0x08, 0x03, 0x20, 0x0B, 0x16]

/-- An idle block with operands for the encoder of the module-information frame. -/
def infoState (h : HdrOperand) (i : InfoOperand) : State :=
  { idleState with ports := { idleState.ports with hdr := h, info := i } }

/-- An idle block with headers to compare. -/
def hdrState (got expected : Hdr) : State :=
  { idleState with ports := { idleState.ports with got := got, expected := expected } }

/-- An idle block with operands of CHAN_FREQ. -/
def chanState (base chan : Nat) : State :=
  { idleState with ports := { idleState.ports with base := base, chan := chan } }

/-! ## Well-formedness, decoding, encoding -/

theorem test_wf_refuses_a_length_of_nine_bits :
    (Instr.decCfg 256).wf = false ∧ (Instr.decInfo 256).wf = false ∧ (Instr.decCfg 255).wf = true ∧
    (Instr.decInfo 255).wf = true := by decide

/-- OP = CW[15:8], ARG = CW[7:0] (R85), the words of R86 bit by bit. -/
theorem test_decode_words_bit_by_bit :
    decode 0b0000000111111111#16 = .ok (.encCfg 0xFF) ∧
    decode 0b0000001000001011#16 = .ok (.decCfg 11) ∧
    decode 0b0000001100000001#16 = .ok (.encInfo 1) ∧
    decode 0b0000010000000110#16 = .ok (.decInfo 6) ∧
    decode 0b0001000000000011#16 = .ok (.setMode 3) ∧
    decode 0b0001000110000000#16 = .ok (.waitReady 0x80) ∧
    decode 0b0010000000000000#16 = .ok (.hdrChk 0) ∧
    decode 0b0010000101010101#16 = .ok (.chanFreq 0x55) := by decide

/-- R91: the words the spec writes for lines of its syntax. -/
theorem test_encode_words :
    encode (.encCfg 0) = 0x0100 ∧ encode (.decCfg 11) = 0x020B ∧ encode (.encInfo 0) = 0x0300 ∧
    encode (.decInfo 6) = 0x0406 ∧ encode (.setMode 3) = 0x1003 ∧ encode (.waitReady 0) = 0x1100 ∧
    encode (.hdrChk 0) = 0x2000 ∧ encode (.chanFreq 0) = 0x2100 := by decide

/-- Rows X1 to X3. -/
theorem test_decode_rejects_illegal_words :
    decode 0x0000 = .error (.illegalOp 0x00) ∧ decode 0x0500 = .error (.illegalOp 0x05) ∧
    decode 0x1200 = .error (.illegalOp 0x12) ∧ decode 0x2200 = .error (.illegalOp 0x22) ∧
    decode 0xFF00 = .error (.illegalOp 0xFF) := by decide

/-- Row X1, on the whole step: NotSupported, CUR_MODE as before. -/
theorem test_illegal_word_steps_to_NotSupported :
    (nextOf (step { idleState with cmd := some 0x0000 })).map
      (fun t => (hostReadsStatus t, hostReadsMode t, t.cmd)) = some (some 3, some 0, none) := by decide

theorem test_withFetchWord_runs_the_word :
    (nextOf (step (idleState.withFetchWord 16 0x1003))).map (fun t => (t.seq, t.tgt)) = some (.settle1, some 3) := by
  decide

/-! ## The codec -/

/-- Row E2. -/
theorem test_encCfg_all_maxima :
    (nextOf (exec (.encCfg 0xFF) (encState ⟨255, 255, 255⟩ maxCfg))).map
      (fun t => (t.results.bufOut.toList, t.results.bufOutLen)) =
    some ([some 0xFF, some 0xFF, some 0xFF, some 0xFF, some 0xFF, some 0xFF, some 0xE3, some 0xFF, some 0xD7,
      some 0xFF, some 0xFF], some 11) := by decide

/-- Row E5. -/
theorem test_encCfg_over_wide_operands :
    (nextOf (exec (.encCfg 0) (encState ⟨0x1C2, 256, 264⟩ wideCfg))).map (fun t => t.results.bufOut.toList) =
    some [some 0xC2, some 0x00, some 0x08, some 0x2C, some 0xFF, some 0x2A, some 0xE2, some 0x17, some 0xC5, some 0x00,
      some 0xE8] := by decide

/-- Row DC2. -/
theorem test_decCfg_every_flag :
    (nextOf (exec (.decCfg 11) (withFrame validFrame idleState))).map
      (fun t => (t.status, t.results.hdr, t.results.cfg)) =
    some (some .success, some ⟨0xC1, 0x00, 0x08⟩,
      some ⟨0x12, 0x34, 5, 0, 7, 3, 1, 3, 0x41, 7, 1, 1, 1, 0, 0⟩) := by decide

/-- Row DC8. -/
theorem test_decCfg_twelve_bytes :
    (nextOf (exec (.decCfg 12) (withFrame validFrame idleState))).map
      (fun t => (hostReadsStatus t, t.results.hdr, t.results.cfg)) = some (some 7, none, none) := by decide

/-- Row I4. -/
theorem test_encInfo_reduces_modulo_256 :
    (nextOf (exec (.encInfo 0) (infoState ⟨0x1C1, 264, 259⟩ ⟨300, 256, 1023⟩))).map
      (fun t => (t.results.bufOut.toList, t.results.bufOutLen)) =
    some ([some 0xC1, some 0x08, some 0x03, some 0x2C, some 0x00, some 0xFF, none, none, none, none, none], some 6) := by
  decide

/-- Row I5. -/
theorem test_decInfo_copies :
    (nextOf (exec (.decInfo 6) (withFrame infoFrame idleState))).map
      (fun t => (t.status, t.results.hdr, t.results.info)) =
    some (some .success, some ⟨0xC1, 0x08, 0x03⟩, some ⟨0x20, 0x0B, 0x16⟩) := by decide

/-- Row I7. -/
theorem test_decInfo_four_bytes :
    (nextOf (exec (.decInfo 4) (withFrame infoFrame idleState))).map
      (fun t => (t.status, t.results.hdr, t.results.info)) = some (some .dataSizeNotMatch, none, none) := by decide

/-- A frame put on BUF_IN is read back, is canonical, and index 255 does not exist (10_state R27). -/
theorem test_buffer_holds_the_frame :
    (Memory.presentFrom [] 0 validFrame).wf = true ∧ (Memory.presentFrom [] 0 validFrame).read 8 = 0xD7 ∧
    Memory.write [] 255 0xAA = [] ∧ Memory.write [] 254 0xAA = [(254, 0xAA)] := by decide

/-! ## SET_MODE and WAIT_READY -/

/-- Row S3: from Configuration to WorTx, M0 driven to the level it has, M1 to 0, M0 first. -/
theorem test_setMode_drives_both_lines :
    (nextOf (step { setModeAt 1 .assert with m0 := some true, m1 := some true, orderIn := [true] })).map
      (fun t => (t.seq, t.m0, t.m1, t.events)) =
    some (.settle2, some true, some false, [.drive .m0 true, .drive .m1 false]) := by decide

/-- Row S7. -/
theorem test_setMode_illegal_target :
    (nextOf (step (setModeAt 0xFF .assert))).map (fun t => (t.seq, hostReadsStatus t, t.m0, t.m1, t.curMode)) =
    some (.idle, some 6, some false, some false, .normal) := by decide

/-- Row Y1, the entry: T0 5000, DEADLINE 6000, OVF 0. -/
theorem test_waitReady_latches :
    (nextOf (exec (.waitReady 0) { idleState with elapsedIn := [0] })).map (fun t => (t.seq, t.latches)) =
    some (.waitAux .waitReady, some ⟨5000, 6000, false⟩) := by decide

/-- Row Y2, the last poll: 0 at 6001. -/
theorem test_waitReady_times_out :
    (nextOf (step { pollState (.waitReady (some 3)) [false] [501] with clock := 5500 })).map
      (fun t => (t.seq, hostReadsStatus t, t.clock, t.curMode)) = some (.idle, some 9, 6001, .normal) := by decide

/-- Rows W1, W7 (the plain case, and the missed expiry after a full turn). -/
theorem test_expired_plain :
    latchWait 1000 1073741824 5000 = ⟨5000, 6000, false⟩ ∧
    [5000, 5999, 6000, 1073741823, 4999, 5200].map (expired ⟨5000, 6000, false⟩) =
      [false, false, true, true, true, false] := by decide

/-- Row W2 (overflow). -/
theorem test_expired_overflow :
    latchWait 1000 1073741824 1073741000 = ⟨1073741000, 0, true⟩ ∧
    [1073741000, 1073741823, 0, 500, 1073740999].map (expired ⟨1073741000, 0, true⟩) =
      [false, false, true, true, true] := by decide

/-- Rows W3, W4, W5, W6 (the boundary, zero timeout, T0 zero). -/
theorem test_latches_at_the_boundary :
    latchWait 1000 1073741824 1073740824 = ⟨1073740824, 0, true⟩ ∧
    latchWait 1000 1073741824 1073740823 = ⟨1073740823, 1073741823, false⟩ ∧
    latchWait 0 1073741824 300 = ⟨300, 300, false⟩ ∧ expired ⟨300, 300, false⟩ 300 = true ∧
    [0, 999, 1000].map (expired (latchWait 1000 1073741824 0)) = [false, false, true] := by decide

/-! ## Auxiliary functions, ports, protocol, presentation -/

/-- Rows H3 and H6. -/
theorem test_hdrChk_address_and_sentinel :
    (nextOf (exec (.hdrChk 0) (hdrState ⟨0xC1, 0x01, 0x08⟩ ⟨0xC1, 0x00, 0x08⟩))).map hostReadsStatus = some (some 11) ∧
    (nextOf (exec (.hdrChk 0) (hdrState ⟨0xFF, 0xFF, 0xFF⟩ ⟨0xC1, 0x00, 0x08⟩))).map hostReadsStatus = some (some 17) := by
  decide

/-- Row F3. -/
theorem test_chanFreq_top_channel :
    (nextOf (exec (.chanFreq 0) (chanState 410 255))).map (fun t => t.results.freq) = some (some 665) := by decide

/-- R163: a channel above 255 is refused. -/
theorem test_chanFreq_refuses_256 :
    isRefused .channelOutOfDomain (exec (.chanFreq 0) (chanState 410 256)) = true := by decide

/-- Rows M1, M3, M4. -/
theorem test_descriptors_accepted :
    constructModel ['4', '0', '0', 'T', '2', '2', 'D'] = .ok ⟨.f400, .t, .dbm22, .discrete⟩ ∧
    constructModel ['9', '0', '0', 'M', 'M', '3', '0', 'S'] = .ok ⟨.f900, .mm, .dbm30, .smd⟩ ∧
    constructModel ['2', '3', '0', 'M', '2', '2', 'S'] = .ok ⟨.f230, .m, .dbm22, .smd⟩ := by
  refine ⟨rfl, rfl, rfl⟩

/-- Rows M2, M5, M6. -/
theorem test_descriptors_rejected :
    constructModel ['1', '2', '3', 'X', '9', '9', 'Z'] = .error .invalidModel ∧
    constructModel ['4', '0', '0', 'T', '2', '2', 'X'] = .error .invalidModel ∧
    constructModel ['4', '0', '0', 'T', '2', '2'] = .error .invalidModel ∧
    constructModel ['4', '0', '0', 'T', '2', '2', 'D', 'D'] = .error .invalidModel ∧
    constructModel ['x', '4', '0', '0', 'T', '2', '2', 'D'] = .error .invalidModel := by
  refine ⟨rfl, rfl, rfl, rfl, rfl⟩

/-- 60_exceptions R170: seventeen kinds, numbered from 1 in order. -/
theorem test_status_codes :
    [Status.success, .unknown, .notSupported, .notImplemented, .notInitialized, .invalidParameter, .dataSizeNotMatch,
      .bufferTooSmall, .timeout, .hardwareError, .headNotRecognized, .noResponseFromDevice, .wrongUartConfig,
      .packetTooBig, .jsonParseError, .deinitFailed, .wrongFormat].map (fun r => (statusCode r).toNat) =
    [1, 2, 3, 4, 5, 6, 7, 8, 9, 10, 11, 12, 13, 14, 15, 16, 17] := by decide

/-- 10_state R29: the codes of CUR_MODE, readable while the block is idle only. -/
theorem test_mode_port :
    [Mode.normal, .worTx, .powerSaving, .configuration, .unknown].map modePort = [0, 1, 2, 3, 7] ∧
    hostReadsMode idleState = some 0 ∧ hostReadsMode (setModeAt 3 .settle1) = none := by decide

/-- 30_encoding R78, R92; 95 section 1.2 item 9; 43_aux_functions R162; 20_memory R51. -/
theorem test_protocol :
    readConfigFrame testParams = [0xC1, 0x00, 0x08] ∧ readInfoFrame testParams = [0xC1, 0x08, 0x03] ∧
    expectedInfoHdr testParams = ⟨0xC1, 0x08, 0x03⟩ ∧
    fixedPayloadFrame 1 2 23 [0x68, 0x69] = some [0x01, 0x02, 0x17, 0x68, 0x69] ∧
    registerInFrame 0x08 6 5 = some 0x0A ∧ registerInFrame 0x00 11 2 = none ∧
    Pseudo.expand .begin = some [.setMode 0] ∧ Pseudo.expand (.cfgLeave .powerSaving) = some [.setMode 2] ∧
    Pseudo.expand (.cfgLeave .unknown) = none := by decide

/-- 95 section 1.2 item 8: 200 bytes go, 201 do not. -/
theorem test_payload_bound :
    transparentPayloadFrame (List.replicate 200 0) = some (List.replicate 200 0) ∧
    transparentPayloadFrame (List.replicate 201 0) = none :=
  ⟨if_pos (by rw [List.length_replicate]; decide), if_neg (by rw [List.length_replicate]; decide)⟩

/-- 30_encoding R75: "200/128/64/32 bytes", "8 values, 500ms–4000ms". -/
theorem test_presentation :
    [0, 1, 2, 3].map subPacketBytes = [200, 128, 64, 32] ∧ worPeriodMs 0 = 500 ∧ worPeriodMs 7 = 4000 ∧
    uartParity 0 = uartParity 3 ∧ powerDbm .dbm22 0 = 22 ∧ powerDbm .dbm30 0 = 30 := by decide

/-! ## Witnesses -/

theorem witness_DecodingAnEncodedOperationGivesItBack :
    (Instr.decCfg 255).wf = true ∧ (Instr.decCfg 0).wf = true ∧ (Instr.setMode 0xFF).wf = true := by decide

theorem witness_AcceptedWordIsTheWordOfItsOperation : decode 0x10FF = .ok (.setMode 0xFF) := rfl

theorem witness_StepRunsTheDecodedCommand :
    (idleState.withFetchWord 16 0x2055).seq = .idle ∧ (idleState.withFetchWord 16 0x2055).cmd = some 0x2055 ∧
    decode 0x2055 = .ok (.hdrChk 0x55) := ⟨rfl, rfl, rfl⟩

theorem witness_IllegalOpReturnsNotSupported :
    (idleState.withFetchWord 16 0x1200).seq = .idle ∧ (idleState.withFetchWord 16 0x1200).cmd = some 0x1200 ∧
    ∀ op ∈ [0x00, 0x05, 0x0F, 0x12, 0x1F, 0x22, 0xFF],
      op ∉ [0x01, 0x02, 0x03, 0x04, 0x10, 0x11, 0x20, 0x21] := by decide

theorem witness_BusySequencerTakesNoCommand :
    (setModeAt 3 .settle1).seq ≠ .idle ∧
    step { setModeAt 3 .settle1 with cmd := some 0x1000 } =
      .next (endSettle1 3 { setModeAt 3 .settle1 with cmd := some 0x1000 }) := ⟨by decide, rfl⟩

theorem witness_IdleBlockWithoutCommandStays : idleState.seq = .idle ∧ idleState.cmd = none := ⟨rfl, rfl⟩

theorem witness_EncCfgPacksTheFrame : (encState ⟨0x1C2, 256, 264⟩ wideCfg).seq = .idle := rfl

theorem witness_EncCfgLeavesFieldlessBitsZero : (encState ⟨255, 255, 255⟩ maxCfg).seq = .idle := rfl

/-- Operands of row E5 against their low bits. -/
theorem witness_EncCfgReadsOnlyTheLowBitsOfEachField :
    (encState ⟨0xC2, 0, 8⟩ ⟨0x2C, 0xFF, 2, 1, 1, 2, 1, 3, 0x17, 5, 0, 1, 1, 0, 0xE8⟩).seq = .idle ∧
    0x1C2 % 256 = 0xC2 ∧ 256 % 256 = 0 ∧ 264 % 256 = 8 ∧ wideCfg.addh % 256 = 0x2C % 256 ∧
    wideCfg.addl % 256 = 0xFF % 256 ∧ wideCfg.airRate % 8 = 2 % 8 ∧ wideCfg.parity % 4 = 1 % 4 ∧
    wideCfg.baud % 8 = 1 % 8 ∧ wideCfg.power % 4 = 2 % 4 ∧ wideCfg.rssiNoise % 2 = 1 % 2 ∧
    wideCfg.subpkt % 4 = 3 % 4 ∧ wideCfg.chan % 256 = 0x17 % 256 ∧ wideCfg.wor % 8 = 5 % 8 ∧
    wideCfg.lbt % 2 = 0 % 2 ∧ wideCfg.fixed % 2 = 1 % 2 ∧ wideCfg.rssiEn % 2 = 1 % 2 ∧
    wideCfg.cryptH % 256 = 0 % 256 ∧ wideCfg.cryptL % 256 = 0xE8 % 256 := by decide

theorem witness_DecCfgUnpacksTheFrame : (withFrame validFrame idleState).seq = .idle := rfl

theorem witness_EncInfoCopiesTheBytes : (infoState ⟨0x1C1, 264, 259⟩ ⟨300, 256, 1023⟩).seq = .idle := rfl

theorem witness_DecInfoCopiesTheBytes : (withFrame infoFrame idleState).seq = .idle := rfl

/-- Rows E7 and DC6: the frame of mixedCfg, presented again. -/
theorem witness_ConfigFieldsSurviveEncodeThenDecode :
    (encState ⟨0xC1, 0, 8⟩ mixedCfg).seq = .idle ∧ (withFrame mixedFrame idleState).seq = .idle ∧
    ∀ i : Fin 11, (packCfg ⟨0xC1, 0, 8⟩ mixedCfg).get i =
      some (Memory.read (withFrame mixedFrame idleState).ports.bufIn i.val) := by decide

/-- Row DC2, a valid frame, and what DEC_CFG reads from it as operands. -/
theorem witness_ConfigBytesSurviveDecodeThenEncode :
    (withFrame validFrame idleState).seq = .idle ∧
    (encState (unpackHdr (withFrame validFrame idleState)).toOperand
      (unpackCfg (withFrame validFrame idleState)).toOperand).seq = .idle ∧
    Memory.read (withFrame validFrame idleState).ports.bufIn 6 &&& 0x1C = 0 ∧
    Memory.read (withFrame validFrame idleState).ports.bufIn 8 &&& 0x28 = 0 ∧
    Memory.read (withFrame validFrame idleState).ports.bufIn 9 = 0 ∧
    Memory.read (withFrame validFrame idleState).ports.bufIn 10 = 0 := by decide

/-- Rows I1 and I5. -/
theorem witness_ModuleInfoSurvivesBothRoundTrips :
    (infoState ⟨255, 0x08, 0x03⟩ ⟨255, 0x0B, 0⟩).seq = .idle ∧ 255 < 256 ∧ 0x08 < 256 ∧ 0x0B < 256 ∧
    (∀ i : Fin 11, i.val < 6 → (packInfo ⟨0xC1, 0x08, 0x03⟩ ⟨0x20, 0x0B, 0x16⟩).get i =
      some (Memory.read (withFrame infoFrame idleState).ports.bufIn i.val)) ∧
    (infoState (unpackHdr (withFrame infoFrame idleState)).toOperand
      (unpackInfo (withFrame infoFrame idleState)).toOperand).seq = .idle := by decide

/-- For each operation two states that present its operands alike and differ in other operand ports, in their lines and in
their parameters; for DEC_CFG and DEC_INFO the buffers differ from byte n on. -/
theorem witness_CodecDependsOnItsOperandsOnly :
    let s := encState ⟨0xC1, 0, 8⟩ mixedCfg
    let u := { bareState with ports := { s.ports with info := ⟨1, 2, 3⟩, bufIn := Memory.presentFrom [] 0 validFrame } }
    (Instr.encCfg 0).isCodec = true ∧ s.seq = .idle ∧ u.seq = .idle ∧
    s.ports.hdr = u.ports.hdr ∧ s.ports.cfg = u.ports.cfg ∧ s.ports ≠ u.ports ∧
    (Instr.encInfo 0).isCodec = true ∧ u.ports.info = { u.ports with cfg := maxCfg }.info ∧
    (Instr.decCfg 11).isCodec = true ∧
    (∀ k < 11, Memory.read (Memory.presentFrom [] 0 validFrame) k =
      Memory.read (Memory.presentFrom [] 0 (validFrame ++ [0xAA])) k) ∧
    (Instr.decInfo 6).isCodec = true ∧
    ∀ k < 6, Memory.read (Memory.presentFrom [] 0 infoFrame) k =
      Memory.read (Memory.presentFrom [] 0 (infoFrame ++ [0x55])) k := by decide

theorem witness_OneStepOperationsChangeOnlyResults :
    (Instr.hdrChk 0).isOneStep = true ∧ (Instr.chanFreq 0).isOneStep = true ∧ (Instr.encCfg 0).isOneStep = true ∧
    (Instr.decCfg 11).isOneStep = true ∧ (Instr.encInfo 0).isOneStep = true ∧ (Instr.decInfo 6).isOneStep = true ∧
    ∃ t, exec (.decInfo 6) (withFrame infoFrame idleState) = .next t := ⟨rfl, rfl, rfl, rfl, rfl, rfl, _, rfl⟩

theorem witness_HdrChkComparesTheHeaders :
    (hdrState ⟨0xFF, 0, 8⟩ ⟨0xC1, 0, 8⟩).seq = .idle ∧
    (hdrState ⟨0xFF, 0, 8⟩ ⟨0xC1, 0, 8⟩).ports.expected.cmd ≠ testParams.opcWrongFormat := by decide

theorem witness_ChanFreqAddsChannelToBase :
    (chanState 410 255).seq = .idle ∧ (chanState 410 255).ports.chan ≤ 255 ∧ (chanState 410 256).seq = .idle ∧
    255 < (chanState 410 256).ports.chan := by decide

/-- Rows M1 and M2. -/
theorem witness_DescriptorsAreExactlyThePattern :
    (∃ d, constructModel ['4', '0', '0', 'T', '2', '2', 'D'] = .ok d) ∧
    ∀ d, constructModel ['1', '2', '3', 'X', '9', '9', 'Z'] ≠ .ok d := ⟨⟨_, rfl⟩, fun _ => nofun⟩

theorem witness_DescriptorIsReadBackFromItsText :
    constructModel ['9', '0', '0', 'M', 'M', '3', '0', 'S'] = .ok ⟨.f900, .mm, .dbm30, .smd⟩ := rfl

theorem witness_SetModeIsAcceptedIntoSettle1 : idleState.seq = .idle ∧ bareState.seq = .idle := ⟨rfl, rfl⟩

theorem witness_SetModeSettlesBeforeTheTargetIsChecked : bareState.seq = .idle := rfl

theorem witness_IllegalTargetEndsWithInvalidParameter :
    idleState.seq = .idle ∧ 4 ≤ (4 : Byte).toNat ∧ 4 ≤ (255 : Byte).toNat := by decide

/-- Both orders. -/
theorem witness_AssertDrivesBothLinesInEitherOrder :
    (setModeAt 3 .assert).seq = .assert ∧ (setModeAt 3 .assert).tgt = some 3 ∧ (3 : Byte).toNat < 4 ∧
    (setModeAt 3 .assert).params.hasM0 = true ∧ (setModeAt 3 .assert).params.hasM1 = true ∧
    (∀ b : Bool, { setModeAt 3 .assert with orderIn := [b] }.orderIn = b :: []) := by decide

/-- Every mode is a mode of some target. -/
theorem witness_LinesShowThePatternOfTheMode :
    (∀ t : Byte, (setModeAt t .assert).seq = .assert ∧ (setModeAt t .assert).tgt = some t) ∧
    modeOf 0 = some .normal ∧ modeOf 1 = some .worTx ∧ modeOf 2 = some .powerSaving ∧
    modeOf 3 = some .configuration ∧ testParams.hasM0 = true ∧ testParams.hasM1 = true :=
  ⟨fun _ => ⟨rfl, rfl⟩, rfl, rfl, rfl, rfl, rfl, rfl⟩

theorem witness_AbsentLinesAreSkipped :
    { bareState with sequencer := .assert 1 none }.seq = .assert ∧ (1 : Byte).toNat < 4 ∧
    bareState.params.hasM0 = false ∧ bareState.params.hasM1 = false := by decide

theorem witness_OneWiredLineIsRefused :
    { setModeAt 3 .assert with params := { testParams with hasM1 := false } }.seq = .assert ∧
    (setModeAt 3 .assert).tgt = some 3 ∧ (3 : Byte).toNat < 4 ∧
    ({ testParams with hasM1 := false } : Params).hasM0 ≠ ({ testParams with hasM1 := false } : Params).hasM1 := by
  decide

/-- Both sides of the overflow test, at the boundary (rows W3, W4). -/
theorem witness_SecondSettleLatchesTheWait :
    (setModeAt 3 .settle2).seq = .settle2 ∧ (setModeAt 3 .settle2).tgt = some 3 ∧
    (setModeAt 3 .settle2).params.hasAux = true ∧
    { setModeAt 3 .settle2 with elapsedIn := [7] }.elapsedIn = 7 :: [] ∧
    testParams.clkMod ≤ 1073740824 + testParams.timeoutMs ∧
    ¬ testParams.clkMod ≤ 1073740823 + testParams.timeoutMs := by decide

theorem witness_WaitReadyEntersTheWait :
    idleState.seq = .idle ∧ idleState.params.hasAux = true ∧ bareState.seq = .idle ∧
    bareState.params.hasAux = false ∧ { idleState with elapsedIn := [7] }.elapsedIn = 7 :: [] := by decide

/-- Rows W3 and W4. -/
theorem witness_ExpiryFollowsTheTwoPredicates :
    1073740823 + 1000 < 1073741824 ∧ 1073741824 ≤ 1073740824 + 1000 := by decide

theorem witness_ExpiryMeansTheTimeHasPassed :
    1073740824 < 1073741824 ∧ 1000 < 1073741824 ∧ 1000 < 1073741824 := by decide

theorem witness_HighLineEndsTheWaitWithSuccess :
    (pollState (.waitReady (some 3)) [true] []).auxIn = true :: [] ∧ (pollState (.waitReady (some 3)) [true] []).seq = .waitAux .waitReady ∧
    (pollState (.setMode 3) [true] []).seq = .waitAux .setMode ∧ (pollState (.setMode 3) [true] []).tgt = some 3 ∧
    modeOf 3 = some .configuration := by decide

/-- One millisecond short of the deadline, and at it. -/
theorem witness_LowLinePollsTheClock :
    (pollState (.setMode 3) [false] [999]).seq = .waitAux .setMode ∧
    (pollState (.setMode 3) [false] [999]).latches = some ⟨5000, 6000, false⟩ ∧
    (pollState (.setMode 3) [false] [999]).auxIn = false :: [] ∧ (pollState (.setMode 3) [false] [999]).elapsedIn = 999 :: [] ∧
    (pollState (.waitReady (some 3)) [false] [1000]).seq = .waitAux .waitReady ∧
    (pollState (.waitReady (some 3)) [false] [1000]).elapsedIn = 1000 :: [] := by decide

/-- All four clauses. -/
theorem witness_FallbackWaitAssumesReadiness :
    bareState.params.hasAux = false ∧ bareState.seq = .idle ∧ { bareState with sequencer := .settle2 2 none }.seq = .settle2 ∧
    { bareState with sequencer := .settle2 2 none }.tgt = some 2 ∧
    (fallbackState (.waitReady none)).seq = .waitFallback .waitReady ∧
    (fallbackState (.setMode 2)).seq = .waitFallback .setMode ∧ (fallbackState (.setMode 2)).tgt = some 2 ∧
    (fallbackState (.setMode 2)).params.hasAux = false ∧ modeOf 2 = some .powerSaving :=
  ⟨rfl, rfl, rfl, rfl, rfl, rfl, rfl, rfl, rfl⟩

theorem witness_SetModeUnwiredRecordsTheTarget :
    bareState.seq = .idle ∧ modeOf 1 = some .worTx ∧ bareState.params.hasM0 = false ∧ bareState.params.hasM1 = false ∧
    bareState.params.hasAux = false := ⟨rfl, rfl, rfl, rfl, rfl⟩

theorem witness_SetModeRunsItsStepsInOrder :
    { idleState with elapsedIn := [100], auxIn := [true], orderIn := [true] }.seq = .idle ∧
    modeOf 0 = some .normal ∧ idleState.params.hasM0 = true ∧ idleState.params.hasM1 = true ∧
    idleState.params.hasAux = true ∧
    { idleState with elapsedIn := [100], auxIn := [true], orderIn := [true] }.elapsedIn = 100 :: [] ∧
    { idleState with elapsedIn := [100], auxIn := [true], orderIn := [true] }.auxIn = true :: [] ∧
    { idleState with elapsedIn := [100], auxIn := [true], orderIn := [true] }.orderIn = true :: [] := by decide

theorem witness_TimedOutSetModeLeavesTheLinesDriven :
    { idleState with elapsedIn := [0, 1000], auxIn := [false] }.seq = .idle ∧ (3 : Byte).toNat < 4 ∧
    idleState.params.hasM0 = true ∧ idleState.params.hasM1 = true ∧ idleState.params.hasAux = true ∧
    idleState.params.timeoutMs < idleState.params.clkMod ∧
    { idleState with elapsedIn := [0, 1000], auxIn := [false] }.elapsedIn = 0 :: 1000 :: [] ∧
    { idleState with elapsedIn := [0, 1000], auxIn := [false] }.auxIn = false :: [] ∧
    idleState.params.timeoutMs ≤ 1000 ∧ 1000 < idleState.params.clkMod := by decide

/-- Row S4: polls at 5400, 5999 and 6000. -/
theorem witness_WaitOnDeadLineEndsWithTimeout :
    let s := pollState (.setMode 3) [false, false, false] [400, 599, 1]
    s.seq = .waitAux .setMode ∧ s.clock < s.params.clkMod ∧ s.params.timeoutMs < s.params.clkMod ∧
    s.latches = some (latchWait s.params.timeoutMs s.params.clkMod s.clock) ∧
    s.elapsedIn = [400, 599, 1] ++ [] ∧ s.auxIn = List.replicate [400, 599, 1].length false ++ [] ∧
    (∀ e ∈ [400, 599, 1], e ≤ s.params.clkMod - s.params.timeoutMs) ∧ s.params.timeoutMs ≤ [400, 599, 1].sum ∧
    [400, 599, 1] ≠ [] := by decide

/-- Polls at 5400 and 5999, then the line is high; and a WAIT_READY straight after reset (row Y4: TGT `none`), the line high at
its first poll. -/
theorem witness_WaitOnRisingLineEndsWithSuccess :
    let s := pollState (.setMode 3) [false, false, true] [400, 599]
    let u := { pollState (.waitReady none) [true] [] with curMode := .unknown }
    s.seq = .waitAux .setMode ∧ s.clock < s.params.clkMod ∧
    s.latches = some (latchWait s.params.timeoutMs s.params.clkMod s.clock) ∧ s.tgt = some 3 ∧ (3 : Byte).toNat < 4 ∧
    s.elapsedIn = [400, 599] ++ [] ∧ s.auxIn = List.replicate [400, 599].length false ++ true :: [] ∧
    ([400, 599].sum < s.params.timeoutMs ∧ s.clock + [400, 599].sum < s.params.clkMod) ∧
    u.seq = .waitAux .waitReady ∧ u.clock < u.params.clkMod ∧
    u.latches = some (latchWait u.params.timeoutMs u.params.clkMod u.clock) ∧ u.tgt = none ∧
    Origin.waitReady ≠ .setMode ∧ u.elapsedIn = [] ++ [] ∧
    u.auxIn = List.replicate ([] : List Nat).length false ++ true :: [] := by decide

/-- Clause 1, with nothing wired: SET_MODE 3 and SET_MODE 0 each return Success after four steps. -/
theorem witness_ConfigEnvelopeRestoresTheMode :
    Pseudo.expand (.cfgLeave bareState.curMode) = some [.setMode 0] ∧
    ∃ u v, completes (.setMode 3) bareState u ∧ u.status = some .success ∧
      completes (.setMode 0) u v ∧ v.status = some .success :=
  ⟨rfl, _, _, ⟨rfl, rfl, _, 4, rfl, rfl⟩, rfl, ⟨rfl, rfl, _, 4, rfl, rfl⟩, rfl⟩

/-- Clause 1 with a later poll: the line is low at 5400 and high at the next poll. -/
theorem witness_ConfigEnvelope_later_poll :
    ∃ u, completes (.setMode 3)
        { idleState with auxIn := [false, true], elapsedIn := [0, 400], orderIn := [true] } u ∧
      u.status = some .success := ⟨_, ⟨rfl, rfl, _, 5, rfl, rfl⟩, rfl⟩

/-- Clause 2, with a busy line and without one. -/
theorem witness_ConfigEnvelope_completes :
    { idleState with auxIn := [true, true] }.seq = .idle ∧ { idleState with auxIn := [true, true] }.cmd = none ∧
    idleState.curMode ≠ .unknown ∧ idleState.params.hasM0 = idleState.params.hasM1 ∧
    { idleState with auxIn := [true, true] }.auxIn = true :: true :: [] ∧
    bareState.seq = .idle ∧ bareState.cmd = none ∧ bareState.curMode ≠ .unknown ∧
    bareState.params.hasM0 = bareState.params.hasM1 ∧ bareState.params.hasAux = false := by decide

/-- A step from every phase, both ways out of ASSERT, of SETTLE2 and of a poll among them. -/
theorem witness_PhasesFollowTheTransitionTable :
    (nextOf (step idleState)).isSome = true ∧ (nextOf (step (setModeAt 3 .settle1))).isSome = true ∧
    (nextOf (step (setModeAt 3 .assert))).isSome = true ∧ (nextOf (step (setModeAt 4 .assert))).isSome = true ∧
    (nextOf (step (setModeAt 3 .settle2))).isSome = true ∧
    (nextOf (step { setModeAt 3 .settle2 with params := bareParams })).isSome = true ∧
    (nextOf (step (pollState (.setMode 3) [true] []))).isSome = true ∧
    (nextOf (step (pollState (.setMode 3) [false] [999]))).map (·.seq) = some (.waitAux .setMode) ∧
    (nextOf (step (pollState (.setMode 3) [false] [1000]))).map (·.seq) = some .idle ∧
    (nextOf (step (fallbackState (.setMode 3)))).isSome = true := by decide

theorem witness_LinesChangeOnlyInAssert :
    ∃ t, step { setModeAt 3 .assert with orderIn := [false] } = .next t ∧
      t.m0 ≠ { setModeAt 3 .assert with orderIn := [false] }.m0 := ⟨_, rfl, by decide⟩

theorem witness_TargetAndWaitLatchesAreWrittenOnEntryOnly :
    (∃ t, step (idleState.withFetchWord 16 0x1003) = .next t ∧ t.tgt ≠ (idleState.withFetchWord 16 0x1003).tgt) ∧
    ∃ t, step { setModeAt 3 .settle2 with elapsedIn := [0] } = .next t ∧
      t.latches ≠ { setModeAt 3 .settle2 with elapsedIn := [0] }.latches :=
  ⟨⟨_, rfl, by decide⟩, _, rfl, by decide⟩

theorem witness_StatusIsWrittenAtTheEndOnly :
    ∃ t, step (setModeAt 4 .assert) = .next t ∧ t.status ≠ (setModeAt 4 .assert).status ∧
      (setModeAt 4 .assert).seq ≠ .idle ∧ t.seq = .idle := ⟨_, rfl, by decide⟩

theorem witness_RunningOperationsTouchNoPort :
    ∃ t, step (setModeAt 3 .settle1) = .next t ∧ (setModeAt 3 .settle1).seq ≠ .idle := ⟨_, rfl, by decide⟩

/-- One step of each kind, with what it adds. -/
theorem witness_EventsAreAppendedInPseudocodeOrder :
    (nextOf (step (idleState.withFetchWord 16 0x1003))).map (·.events) = some [] ∧
    (nextOf (step { idleState.withFetchWord 16 0x1100 with elapsedIn := [3] })).map (·.events) = some [.clock 5003] ∧
    (nextOf (step (setModeAt 3 .settle1))).map (·.events) = some [.hold 7] ∧
    (nextOf (step { setModeAt 3 .assert with orderIn := [false] })).map (·.events) =
      some [.drive .m1 true, .drive .m0 true] ∧
    (nextOf (step (setModeAt 4 .assert))).map (·.events) = some [] ∧
    (nextOf (step { setModeAt 3 .settle2 with elapsedIn := [9] })).map (·.events) = some [.hold 7, .clock 5009] ∧
    (nextOf (step (pollState (.setMode 3) [true] []))).map (·.events) = some [.sample true] ∧
    (nextOf (step (pollState (.setMode 3) [false] [999]))).map (·.events) = some [.sample false, .clock 5999] ∧
    (nextOf (step (fallbackState (.setMode 3)))).map (·.events) = some [.hold 100] := by decide

/-- The sample parameters are a configuration of the block. -/
theorem testParams_ok : testParams.ok := ⟨rfl, by decide, by decide⟩

/-- Nothing is on BUF_OUT of an idle block straight after reset. -/
theorem idleState_out (i : Fin 11) : idleState.results.bufOut.get i = none := by
  revert i
  decide

/-- The invariant holds of an idle block with any operands on its ports, its wait latches never written. -/
theorem inv_idleState (chan : Nat) (cmd : Option Word) : Inv { chanState 410 chan with cmd := cmd } where
  paramsOk := testParams_ok
  bufInWf := rfl
  clockInRange := (by decide : 5000 < testParams.clkMod)
  latchesOfWait := fun _ h => nomatch h
  latchesNeedAux := fun _ => rfl
  waitAuxWired := fun _ h => nomatch h
  fallbackUnwired := fun _ h => nomatch h
  targetAsserted := fun h => nomatch h
  absentLinesUndriven := fun h => nomatch h
  linesTogether := rfl
  recordedModeDriven := fun _ _ => (by decide : idleState.m0 ≠ none)
  outLenLegal := .inl rfl
  outFilled := by
    intro i
    constructor
    · exact fun h => absurd (idleState_out i) h
    · rintro ⟨n, hn, -⟩
      cases hn
  statusOfBlock := fun _ h => nomatch h

/-- The poll loop of a SET_MODE Configuration with its pattern on the lines. -/
def assertedPoll : State := { pollState (.setMode 3) [true] [] with m0 := some true, m1 := some true }

/-- The invariant holds in the poll loop. -/
theorem inv_assertedPoll : Inv assertedPoll where
  paramsOk := testParams_ok
  bufInWf := rfl
  clockInRange := by decide
  latchesOfWait := fun l h => by
    cases h
    decide
  latchesNeedAux := fun h => nomatch h
  waitAuxWired := fun _ _ => rfl
  fallbackUnwired := fun _ h => nomatch h
  targetAsserted := fun _ => ⟨3, rfl, by decide, fun _ => by decide⟩
  absentLinesUndriven := fun h => nomatch h
  linesTogether := rfl
  recordedModeDriven := fun _ _ => nofun
  outLenLegal := .inl rfl
  outFilled := (inv_idleState 0 none).outFilled
  statusOfBlock := fun _ h => nomatch h

/-- Both clauses, from a state that meets the invariant. -/
theorem witness_OnlySuccessfulSetModeChangesCurMode :
    Inv assertedPoll ∧ ∃ t, step assertedPoll = .next t ∧ t.curMode ≠ assertedPoll.curMode ∧
      assertedPoll.seq = .waitAux .setMode ∧ t.seq = .idle ∧ t.status = some .success :=
  ⟨inv_assertedPoll, _, rfl, by decide⟩

/-- The two refusals, and a step that goes on from a state with one line wired and one with CHAN 256. -/
theorem witness_StepsStopOnlyWhereTheSpecRefuses :
    let p : Params := { testParams with hasM1 := false }
    (setModeAt 3 .assert).seq = .assert ∧ (setModeAt 3 .assert).tgt = some 3 ∧ (3 : Byte).toNat < 4 ∧ p.hasM0 ≠ p.hasM1 ∧
    isRefused .oneModeLineWired (step { setModeAt 3 .assert with params := p }) = true ∧
    isRefused .channelOutOfDomain (step { chanState 410 256 with cmd := some 0x2100 }) = true ∧
    (nextOf (step { setModeAt 4 .assert with params := p })).isSome = true ∧
    (nextOf (step { chanState 410 256 with cmd := some 0x2000 })).isSome = true := by decide

/-- The first and the last phase of a SET_MODE, and a poll of either operation. -/
theorem witness_LatchesHoldAValueWhereTheyAreRead :
    (setModeAt 3 .settle1).seq.inSetMode = true ∧ (fallbackState (.setMode 3)).seq.inSetMode = true ∧
    (pollState (.setMode 3) [] []).seq = .waitAux .setMode ∧ (pollState (.waitReady none) [] []).seq = .waitAux .waitReady := by
  decide

/-- The first and the last register of each block, the bytes beside them, and a base so high that the sum passes 255. -/
theorem witness_FrameBytesCarryTheRegistersOfTheirBlock :
    registerInFrame 0xFE 11 3 = some 0xFE ∧ registerInFrame 0xFE 11 10 = some 0x105 ∧ registerInFrame 0xFE 11 11 = none ∧
    registerInFrame 0x08 6 2 = none ∧ registerInFrame 0x08 6 3 = some 8 ∧ registerInFrame 0xFF 6 5 = some 0x101 ∧
    registerInFrame 0x08 6 6 = none := by decide

/-- A status and none, two states that read alike, and a step under the invariant after which the port reads. -/
theorem witness_StatusPortShowsTheCodeOfTheLastOutcome :
    idleState.status = none ∧ (returnStatus .wrongFormat idleState).status = some .wrongFormat ∧
    hostReadsStatus (returnStatus .timeout idleState) = hostReadsStatus (returnStatus .timeout bareState) ∧
    Inv { chanState 410 23 with cmd := some 0x2100 } ∧
    ∃ t, step { chanState 410 23 with cmd := some 0x2100 } = .next t ∧ hostReadsStatus t = some 1 :=
  ⟨rfl, rfl, rfl, inv_idleState _ _, _, rfl, rfl⟩

theorem witness_ModePortIsReadWhileIdle :
    idleState.seq = .idle ∧ (setModeAt 3 .settle1).seq ≠ .idle ∧ hostReadsMode { idleState with curMode := .unknown } = some 7 ∧
    modeOf 3 = some .configuration := by decide

theorem witness_EveryStepKeepsTheInvariant :
    Inv { chanState 410 23 with cmd := some 0x1003 } ∧ ∃ t, step { chanState 410 23 with cmd := some 0x1003 } = .next t :=
  ⟨inv_idleState _ _, _, rfl⟩

/-- Both ways out: a step that goes on, and the one refusal, at CHAN 256. -/
theorem witness_NoStepStopsUnderTheInvariant :
    Inv { chanState 410 255 with cmd := some 0x2100 } ∧
    (∃ t, step { chanState 410 255 with cmd := some 0x2100 } = .next t) ∧
    Inv { chanState 410 256 with cmd := some 0x2100 } ∧
    step { chanState 410 256 with cmd := some 0x2100 } = .refused .channelOutOfDomain :=
  ⟨inv_idleState _ _, ⟨_, rfl⟩, inv_idleState _ _, rfl⟩

end Sys2Proof.Tests
end

/-!
The scope family (spec/00_scope.md): the parameters of the instance and the invariant at reset (R7, R37), and the latches
that a phase reads (R11).
-/

section
namespace Sys2Proof

/-! ## The parameters of the instance (R7) -/

/-- The free draw of OPC_WRONG_FORMAT is stepped past OPC_READ where the two meet (log 2). -/
theorem Config.params_opcWrongFormat_ne_opcRead : Config.params.opcWrongFormat ≠ Config.params.opcRead := by
  change (if Config.wrongFormatDraw = Config.opcRead then Config.opcRead + 1 else Config.wrongFormatDraw) ≠ Config.opcRead
  split
  · simp
  · assumption

/-- CLK_MOD exceeds TIMEOUT_MS, however the excess is drawn (log 2). -/
theorem Config.params_timeoutMs_lt_clkMod : Config.params.timeoutMs < Config.params.clkMod :=
  Nat.lt_of_lt_of_le (Nat.lt_succ_self 1000) (Nat.le_add_right (1000 + 1) Config.clkModExcess)

/-- The instance is a configuration of the block (R7, R137): one draw decides both mode-select lines. -/
theorem Config.params_ok : Config.params.ok :=
  ⟨rfl, Config.params_timeoutMs_lt_clkMod, Config.params_opcWrongFormat_ne_opcRead⟩

namespace Machine

/-! ## Reset -/

/-- The clock starts at a reading of the instance's clock (R36), whatever value was drawn for it (log 4). -/
theorem reset_clock_lt_clkMod : State.reset.clock < State.reset.params.clkMod :=
  Nat.mod_lt _ (Nat.zero_lt_of_lt Config.params_timeoutMs_lt_clkMod)

/-- No byte of BUF_OUT holds a value at reset (R37). -/
theorem reset_bufOut_get (i : Fin 11) : State.reset.results.bufOut.get i = none :=
  Vector.getElem_replicate i.isLt

/-- Settles O54: the premises on the instance hold for every draw of its parameters, and the reset values leave every
clause about a latch, a phase, a recorded mode or a status without a case. -/
theorem invariantHoldsAtReset : Obligations.InvariantHoldsAtReset where
  paramsOk := Config.params_ok
  bufInWf := reset_bufIn_wf
  clockInRange := reset_clock_lt_clkMod
  latchesOfWait := nofun
  latchesNeedAux := fun _ => rfl
  waitAuxWired := nofun
  fallbackUnwired := nofun
  targetAsserted := nofun
  absentLinesUndriven := fun _ => ⟨rfl, rfl⟩
  linesTogether := rfl
  recordedModeDriven := fun h => absurd rfl h
  outLenLegal := .inl rfl
  outFilled := fun i => ⟨fun h => absurd (reset_bufOut_get i) h, nofun⟩
  statusOfBlock := nofun

/-! ## The latches a phase reads (R11, R31, R32) -/

/-- A wait of a SET_MODE carries the target it was accepted with. -/
theorem Waiter.tgt_of_origin_setMode {w : Waiter} (h : w.origin = .setMode) : ∃ t : Byte, w.tgt = some t := by
  cases w with
  | setMode t => exact ⟨t, rfl⟩
  | waitReady ot => cases h

/-- A wait phase belongs to a SET_MODE exactly when its waiter does. -/
@[simp] theorem Phase.inSetMode_waitAux (o : Origin) : (Phase.waitAux o).inSetMode = true ↔ o = .setMode := by
  cases o <;> decide

@[simp] theorem Phase.inSetMode_waitFallback (o : Origin) : (Phase.waitFallback o).inSetMode = true ↔ o = .setMode := by
  cases o <;> decide

/-- TGT holds a value in every phase of a SET_MODE: before the wait in the phase itself, in the wait with the waiter. -/
theorem Sequencer.tgt_of_inSetMode {q : Sequencer} (h : q.phase.inSetMode = true) : ∃ t : Byte, q.tgt = some t := by
  cases q with
  | idle => cases h
  | settle1 t | assert t | settle2 t => exact ⟨t, rfl⟩
  | waitAux w l => exact Waiter.tgt_of_origin_setMode ((Phase.inSetMode_waitAux _).mp h)
  | waitFallback w l => exact Waiter.tgt_of_origin_setMode ((Phase.inSetMode_waitFallback _).mp h)

/-- The wait latches hold values throughout WAIT_AUX: the phase itself carries them. -/
theorem Sequencer.latches_of_phase_waitAux {q : Sequencer} {o : Origin} (h : q.phase = .waitAux o) :
    ∃ l : Latches, q.latches = some l := by
  cases q with
  | waitAux w l => exact ⟨l, rfl⟩
  | idle | settle1 | assert | settle2 | waitFallback => cases h

/-- Settles O58: what the sequencer carries in its phase decides both clauses (log 12). -/
theorem latchesHoldAValueWhereTheyAreRead : Obligations.LatchesHoldAValueWhereTheyAreRead :=
  fun _ => ⟨Sequencer.tgt_of_inSetMode, fun _ => Sequencer.latches_of_phase_waitAux⟩

end Machine
end Sys2Proof
end

/-!
The state family (spec/10_state.md): what each register, latch, line and port can become in one step (R20, R29 to R36), what
the host reads of STATUS and CUR_MODE (R29, R34), and that every step keeps the invariant.
-/

section
namespace Sys2Proof.Machine

/-! ## The one-step operations (R20, R111, R171) -/

/-- The status and the results a one-step operation leaves, row by row of the opcode map; `exec_oneStep` says that nothing
else differs. -/
inductive OneStepEffect (s t : State) : Instr → Prop where
  | encCfg (a : Byte) (status : t.status = some .success)
      (results : t.results =
        { s.results with bufOut := packCfg s.ports.hdr s.ports.cfg, bufOutLen := some Config.cfgFrameLen }) :
      OneStepEffect s t (.encCfg a)
  | decCfg (n : Nat) (status : t.status = some (lengthStatus n Config.cfgFrameLen))
      (results : t.results =
        { s.results with
          hdr := if n = Config.cfgFrameLen then some (unpackHdr s) else none
          cfg := if n = Config.cfgFrameLen then some (unpackCfg s) else none }) :
      OneStepEffect s t (.decCfg n)
  | encInfo (a : Byte) (status : t.status = some .success)
      (results : t.results =
        { s.results with bufOut := packInfo s.ports.hdr s.ports.info, bufOutLen := some Config.infoFrameLen }) :
      OneStepEffect s t (.encInfo a)
  | decInfo (n : Nat) (status : t.status = some (lengthStatus n Config.infoFrameLen))
      (results : t.results =
        { s.results with
          hdr := if n = Config.infoFrameLen then some (unpackHdr s) else none
          info := if n = Config.infoFrameLen then some (unpackInfo s) else none }) :
      OneStepEffect s t (.decInfo n)
  | hdrChk (a : Byte) (status : t.status = some (headerStatus s.params.opcWrongFormat s.ports.got s.ports.expected))
      (results : t.results = s.results) :
      OneStepEffect s t (.hdrChk a)
  | chanFreq (a : Byte) (status : t.status = some .success)
      (results : t.results = { s.results with freq := some (s.ports.base + s.ports.chan) }) :
      OneStepEffect s t (.chanFreq a)

/-- A one-step operation that answers has had its effect. -/
theorem exec_oneStepEffect {i : Instr} {s t : State} (hi : i.isOneStep = true) (h : exec i s = .next t) :
    OneStepEffect s t i := by
  cases i with
  | setMode | waitReady => cases hi
  | encCfg a =>
    cases (whenIdle_next h).2
    exact .encCfg a rfl rfl
  | decCfg n =>
    cases (whenIdle_next h).2
    exact .decCfg n rfl rfl
  | encInfo a =>
    cases (whenIdle_next h).2
    exact .encInfo a rfl rfl
  | decInfo n =>
    cases (whenIdle_next h).2
    exact .decInfo n rfl rfl
  | hdrChk a =>
    cases (whenIdle_next h).2
    exact .hdrChk a rfl rfl
  | chanFreq a =>
    obtain ⟨-, h⟩ := whenIdle_next h
    split at h
    · cases h
      exact .chanFreq a rfl rfl
    · cases h

/-- The length rule returns Success or DataSizeNotMatch (R54), both statuses of the block. -/
theorem lengthStatus_ofBlock (n frameLen : Nat) : (lengthStatus n frameLen).ofBlock = true := by
  unfold lengthStatus
  split <;> rfl

/-- The header check returns WrongFormat, Success or HeadNotRecognized (R161), all statuses of the block. -/
theorem headerStatus_ofBlock (wrongFormat : Byte) (got expected : Hdr) :
    (headerStatus wrongFormat got expected).ofBlock = true := by
  unfold headerStatus
  split
  · rfl
  · split <;> rfl

/-- A one-step operation leaves a status of the block (R170, R171). -/
theorem OneStepEffect.status_ofBlock {i : Instr} {s t : State} (h : OneStepEffect s t i) :
    ∃ r, t.status = some r ∧ r.ofBlock = true := by
  cases h with
  | encCfg _ status _ | encInfo _ status _ | chanFreq _ status _ => exact ⟨.success, status, rfl⟩
  | decCfg n status _ | decInfo n status _ => exact ⟨_, status, lengthStatus_ofBlock n _⟩
  | hdrChk _ status _ => exact ⟨_, status, headerStatus_ofBlock ..⟩

/-- Settles O19: STATUS and results are all that a one-step operation writes, and its effect names the result ports. -/
theorem oneStepOperationsChangeOnlyResults : Obligations.OneStepOperationsChangeOnlyResults := by
  intro i s t hi h
  have ht : t = { s with results := t.results, status := t.status } := (exec_oneStep hi h).2
  have heff : OneStepEffect s t i := exec_oneStepEffect hi h
  obtain ⟨r, hr, -⟩ := heff.status_ofBlock
  refine ⟨ht, by simp [hr], fun k => by rw [ht], ?_⟩
  cases heff with
  | encCfg _ _ results | decCfg _ _ results | encInfo _ _ results | decInfo _ _ results | hdrChk _ _ results
  | chanFreq _ _ results => rw [results]

/-! ### What a decoder reads of BUF_IN -/

section
variable {s u : State} {n : Nat} (h : ∀ k < n, Memory.read s.ports.bufIn k = Memory.read u.ports.bufIn k)
include h

/-- The header of a frame is in its first three bytes (R105, R123). -/
theorem unpackHdr_congr (hn : 3 ≤ n) : unpackHdr s = unpackHdr u := by
  have hb : ∀ k < 3, bufRead s k = bufRead u k := fun k hk => h k (by omega)
  simp [unpackHdr, hb]

/-- The fields of a configuration frame are in its eleven bytes (R105). -/
theorem unpackCfg_congr (hn : 11 ≤ n) : unpackCfg s = unpackCfg u := by
  have hb : ∀ k < 11, bufRead s k = bufRead u k := fun k hk => h k (by omega)
  simp [unpackCfg, hb]

/-- The fields of a module-information frame are in its six bytes (R123). -/
theorem unpackInfo_congr (hn : 6 ≤ n) : unpackInfo s = unpackInfo u := by
  have hb : ∀ k < 6, bufRead s k = bufRead u k := fun k hk => h k (by omega)
  simp [unpackInfo, hb]

/-- DEC_CFG reports the same records of two presentations that agree on its `n` bytes (R104, R106). -/
theorem decodedCfg_congr :
    (if n = Config.cfgFrameLen then some (unpackHdr s) else none) =
      (if n = Config.cfgFrameLen then some (unpackHdr u) else none) ∧
    (if n = Config.cfgFrameLen then some (unpackCfg s) else none) =
      if n = Config.cfgFrameLen then some (unpackCfg u) else none := by
  by_cases hn : n = 11
  · rw [unpackHdr_congr h (by omega), unpackCfg_congr h (by omega)]
    exact ⟨rfl, rfl⟩
  · simp [Config.cfgFrameLen, hn]

/-- DEC_INFO reports the same records of two presentations that agree on its `n` bytes (R123, R124). -/
theorem decodedInfo_congr :
    (if n = Config.infoFrameLen then some (unpackHdr s) else none) =
      (if n = Config.infoFrameLen then some (unpackHdr u) else none) ∧
    (if n = Config.infoFrameLen then some (unpackInfo s) else none) =
      if n = Config.infoFrameLen then some (unpackInfo u) else none := by
  by_cases hn : n = 6
  · rw [unpackHdr_congr h (by omega), unpackInfo_congr h (by omega)]
    exact ⟨rfl, rfl⟩
  · simp [Config.infoFrameLen, hn]

end

/-- A codec operation begins and ends in one step (R20). -/
theorem isOneStep_of_isCodec {i : Instr} (hi : i.isCodec = true) : i.isOneStep = true := by
  cases i with
  | encCfg | decCfg | encInfo | decInfo => rfl
  | setMode | waitReady | hdrChk | chanFreq => cases hi

/-- A codec operation answers on every idle sequencer (R111). -/
theorem exec_codec_answers {i : Instr} {s : State} (hi : i.isCodec = true) (hs : s.seq = .idle) :
    ∃ t, exec i s = .next t := by
  obtain h | ⟨⟨a, rfl⟩, -⟩ := exec_idle hs i
  · exact h
  · cases hi

/-- The length rule returns Success exactly for a frame's own length (R54). -/
theorem lengthStatus_self (n : Nat) : lengthStatus n n = .success := if_pos rfl

/-- Settles O18: the effect of a codec operation is written in its own operands, and a decoder of `n` bytes reads none from
index `n` on. -/
theorem codecDependsOnItsOperandsOnly : Obligations.CodecDependsOnItsOperandsOnly := by
  intro i s u hi hs hu hops
  have hi1 : i.isOneStep = true := isOneStep_of_isCodec hi
  obtain ⟨t, ht⟩ := exec_codec_answers hi hs
  obtain ⟨v, hv⟩ := exec_codec_answers hi hu
  have htframe := (exec_oneStep hi1 ht).2
  have hvframe := (exec_oneStep hi1 hv).2
  have hteff := exec_oneStepEffect hi1 ht
  have hveff := exec_oneStepEffect hi1 hv
  refine ⟨t, v, ht, hv, ?_⟩
  cases hteff with
  | hdrChk | chanFreq => cases hi
  | encCfg _ ts tr =>
    obtain ⟨hhdr, hcfg⟩ := hops
    cases hveff with
    | encCfg _ vs vr =>
      exact ⟨ts.trans vs.symm, htframe, hvframe, by rw [tr, vr, hhdr, hcfg], by rw [tr, vr], ts⟩
  | encInfo _ ts tr =>
    obtain ⟨hhdr, hinfo⟩ := hops
    cases hveff with
    | encInfo _ vs vr =>
      exact ⟨ts.trans vs.symm, htframe, hvframe, by rw [tr, vr, hhdr, hinfo], by rw [tr, vr], ts⟩
  | decCfg n ts tr =>
    obtain ⟨hhdr, hcfg⟩ := decodedCfg_congr hops
    cases hveff with
    | decCfg _ vs vr =>
      refine ⟨ts.trans vs.symm, htframe, hvframe, by rw [tr, vr, hhdr], by rw [tr, vr, hcfg], ?_⟩
      rintro rfl
      exact ts.trans (congrArg some (lengthStatus_self 11))
  | decInfo n ts tr =>
    obtain ⟨hhdr, hinfo⟩ := decodedInfo_congr hops
    cases hveff with
    | decInfo _ vs vr =>
      refine ⟨ts.trans vs.symm, htframe, hvframe, by rw [tr, vr, hhdr], by rw [tr, vr, hinfo], ?_⟩
      rintro rfl
      exact ts.trans (congrArg some (lengthStatus_self 6))

/-! ## What a step can write (R20, R22, R29 to R36)

First the operations a transition is made of: what each leaves in the registers, for `simp`. -/

section
variable (c : Byte) (v0 v1 : Bool) (w : Waiter) (s : State)

/-- The first hold of SET_MODE moves the sequencer only (R132, R133). -/
@[simp] theorem endSettle1_registers :
    (endSettle1 c s).params = s.params ∧ (endSettle1 c s).ports = s.ports ∧ (endSettle1 c s).results = s.results ∧
    (endSettle1 c s).status = s.status ∧ (endSettle1 c s).curMode = s.curMode ∧ (endSettle1 c s).m0 = s.m0 ∧
    (endSettle1 c s).m1 = s.m1 ∧ (endSettle1 c s).clock = s.clock ∧ (endSettle1 c s).seq = .assert ∧
    (endSettle1 c s).tgt = some c ∧ (endSettle1 c s).latches = s.latches := by
  simp [endSettle1]

/-- The two drives write the lines only (R33, R136). -/
@[simp] theorem drivePair_registers :
    (drivePair v0 v1 s).params = s.params ∧ (drivePair v0 v1 s).ports = s.ports ∧
    (drivePair v0 v1 s).results = s.results ∧ (drivePair v0 v1 s).status = s.status ∧
    (drivePair v0 v1 s).curMode = s.curMode ∧ (drivePair v0 v1 s).m0 = some v0 ∧ (drivePair v0 v1 s).m1 = some v1 ∧
    (drivePair v0 v1 s).clock = s.clock := by
  simp [drivePair_eq]

/-- The second hold of SET_MODE leaves all but the sequencer and the clock (R138). -/
@[simp] theorem endSettle2_registers :
    (endSettle2 c s).params = s.params ∧ (endSettle2 c s).ports = s.ports ∧ (endSettle2 c s).results = s.results ∧
    (endSettle2 c s).status = s.status ∧ (endSettle2 c s).curMode = s.curMode ∧ (endSettle2 c s).m0 = s.m0 ∧
    (endSettle2 c s).m1 = s.m1 ∧ (endSettle2 c s).tgt = some c := by
  simp [endSettle2, enterWait_frame]

/-- A wait that went well returns Success and leaves all but CUR_MODE (R140, R148). -/
@[simp] theorem waitSucceeded_registers :
    (waitSucceeded w s).params = s.params ∧ (waitSucceeded w s).ports = s.ports ∧
    (waitSucceeded w s).results = s.results ∧ (waitSucceeded w s).status = some .success ∧
    (waitSucceeded w s).m0 = s.m0 ∧ (waitSucceeded w s).m1 = s.m1 ∧ (waitSucceeded w s).clock = s.clock ∧
    (waitSucceeded w s).seq = .idle ∧ (waitSucceeded w s).tgt = s.tgt ∧ (waitSucceeded w s).latches = s.latches := by
  simp [waitSucceeded_eq]

/-- Entry to a wait: with a busy line the clock is read and the latches are written, without one neither is (R139, R144). -/
theorem enterWait_cases :
    (s.params.hasAux = true ∧ (enterWait w s).seq = .waitAux w.origin ∧ (enterWait w s).clock = clockReading s ∧
      (enterWait w s).latches = some (latchWait s.params.timeoutMs s.params.clkMod (clockReading s))) ∨
    (s.params.hasAux = false ∧ (enterWait w s).seq = .waitFallback w.origin ∧ (enterWait w s).clock = s.clock ∧
      (enterWait w s).latches = s.latches) := by
  cases haux : s.params.hasAux with
  | true => simp [enterWait_aux haux]
  | false => simp [enterWait_fallback haux]

/-- Entry to a wait moves the clock by at most a reading (R36). -/
theorem enterWait_clock : (enterWait w s).clock = s.clock ∨ ∃ ms, (enterWait w s).clock = ms % s.params.clkMod := by
  obtain ⟨-, -, hclock, -⟩ | ⟨-, -, hclock, -⟩ := enterWait_cases w s
  · exact .inr ⟨_, hclock⟩
  · exact .inl hclock

/-- Entry to a wait on the busy line writes the latches of R144, any other leaves them. -/
theorem enterWait_latches :
    (enterWait w s).latches = s.latches ∨
    (s.params.hasAux = true ∧ (enterWait w s).seq = .waitAux w.origin ∧
      ∃ ms, (enterWait w s).latches = some (latchWait s.params.timeoutMs s.params.clkMod (ms % s.params.clkMod))) := by
  obtain ⟨haux, hseq, -, hnew⟩ | ⟨-, -, -, hsame⟩ := enterWait_cases w s
  · exact .inr ⟨haux, hseq, _, hnew⟩
  · exact .inl hsame

/-- The phase of a wait tells whether a busy line is wired (R139). -/
theorem enterWait_wired :
    (∀ o, (enterWait w s).seq = .waitAux o → s.params.hasAux = true) ∧
    ∀ o, (enterWait w s).seq = .waitFallback o → s.params.hasAux = false := by
  obtain ⟨haux, hseq, -⟩ | ⟨haux, hseq, -⟩ := enterWait_cases w s <;> simp [haux, hseq]

/-- A sequencer that enters a wait is busy. -/
theorem enterWait_busy : (enterWait w s).seq ≠ .idle := by
  obtain ⟨-, hseq, -⟩ | ⟨-, hseq, -⟩ := enterWait_cases w s <;> simp [hseq]

/-- The wait of a WAIT_READY is no phase of a SET_MODE (R148, R150). -/
theorem enterWait_waitReady_not_afterAssert (ot : Option Byte) :
    (enterWait (.waitReady ot) s).seq.afterAssert = false := by
  obtain ⟨-, hseq, -⟩ | ⟨-, hseq, -⟩ := enterWait_cases (.waitReady ot) s <;> rw [hseq] <;> rfl

end

/-- A code that is a mode is one of the four target codes (R81). -/
theorem toNat_lt_of_modeOf {c : Byte} {m : Mode} (hm : modeOf c = some m) : c.toNat < 4 := by
  have hnone := (modeOf_eq_none_iff c).not.mp (by simp [hm])
  omega

/-! Then each register over a step: it stays, or one of the transitions named has written it. -/

section
variable {s t : State} (h : step s = .next t)
include h

/-- An idle sequencer waits, rejects a word, or accepts an operation (R87, R150, R200). -/
theorem step_idle_cases (hidle : s.seq = .idle) :
    t = s ∨ t = returnStatus .notSupported (takeCommand s) ∨ ∃ i, exec i (takeCommand s) = .next t := by
  cases step_transition h
  case waits eq => exact .inl eq
  case rejects eq => exact .inr (.inl eq)
  case accepts eq => exact .inr (.inr ⟨_, eq⟩)
  case settled1 seq _ | badTarget seq _ _ | drives seq _ _ _ _ | skips seq _ _ _ _ | settled2 seq _ | pollReady seq _ _
      | pollExpired seq _ _ _ | pollAgain seq _ _ _ | fallback seq _ => cases hidle.symm.trans (State.seq_of seq)

/-- What an idle sequencer never writes, whatever command it takes (R20, R22, R151). -/
theorem step_idle_frame (hidle : s.seq = .idle) :
    t.params = s.params ∧ t.ports = s.ports ∧ t.curMode = s.curMode ∧ t.m0 = s.m0 ∧ t.m1 = s.m1 := by
  obtain eq | eq | ⟨i, hexec⟩ := step_idle_cases h hidle
  · simp [eq]
  · simp [eq]
  · obtain ⟨hparams, -, hports, hmode, hm0, hm1⟩ := exec_frame hexec
    exact ⟨hparams, hports, hmode, hm0, hm1⟩

/-- What a busy sequencer never writes (R20, R22, R58, R85). -/
theorem step_busy_frame (hbusy : s.seq ≠ .idle) :
    t.params = s.params ∧ t.ports = s.ports ∧ t.results = s.results := by
  cases step_transition h
  case waits seq _ _ | accepts seq _ _ _ | rejects seq _ _ _ => exact absurd seq hbusy
  case settled1 eq | badTarget eq | drives eq | skips eq | settled2 eq | pollReady eq | pollExpired eq | pollAgain eq
      | fallback eq => simp [eq]

/-- No step writes a parameter or an operand port (R22, R85, R179). -/
theorem step_frame : t.params = s.params ∧ t.ports = s.ports := by
  by_cases hidle : s.seq = .idle
  · obtain ⟨hparams, hports, -⟩ := step_idle_frame h hidle
    exact ⟨hparams, hports⟩
  · obtain ⟨hparams, hports, -⟩ := step_busy_frame h hidle
    exact ⟨hparams, hports⟩

/-- The lines stay, or ASSERT has driven both (R33, R134). -/
theorem step_lines :
    (t.m0 = s.m0 ∧ t.m1 = s.m1) ∨
    (s.seq = .assert ∧ s.params.hasM0 = true ∧ s.params.hasM1 = true ∧ t.seq = .settle2 ∧
      ∃ v0 v1, t.m0 = some v0 ∧ t.m1 = some v1) := by
  cases step_transition h
  case waits seq _ _ | accepts seq _ _ _ | rejects seq _ _ _ =>
    obtain ⟨-, -, -, hm0, hm1⟩ := step_idle_frame h seq
    exact .inl ⟨hm0, hm1⟩
  case drives seq _ wired0 wired1 eq => exact .inr ⟨State.seq_of seq, wired0, wired1, by simp [eq], by simp [eq]⟩
  case settled1 eq | badTarget eq | skips eq | settled2 eq | pollReady eq | pollExpired eq | pollAgain eq
      | fallback eq => simp [eq]

/-- A line that is driven stays driven (R33). -/
theorem step_keeps_m0_driven (hm0 : s.m0 ≠ none) : t.m0 ≠ none := by
  obtain ⟨hsame, -⟩ | ⟨-, -, -, -, v0, v1, hdriven, -⟩ := step_lines h
  · rwa [hsame]
  · simp [hdriven]

/-- The clock moves only by a reading (R36). -/
theorem step_clock : t.clock = s.clock ∨ ∃ ms, t.clock = ms % s.params.clkMod := by
  cases step_transition h
  case accepts eq =>
    obtain ⟨-, ⟨-, ht⟩ | ⟨c, -, ht⟩ | ⟨a, -, ht⟩⟩ := exec_cases eq <;> rw [ht]
    · exact .inl rfl
    · exact .inl rfl
    · exact enterWait_clock _ (takeCommand s)
  case settled2 c l seq eq =>
    rw [eq]
    exact enterWait_clock _ (hold s.params.settleMs s)
  case pollExpired eq | pollAgain eq => exact .inr ⟨_, by rw [eq]; rfl⟩
  case waits eq | rejects eq | settled1 eq | badTarget eq | drives eq | skips eq | pollReady eq | fallback eq =>
    simp [eq]

/-- The wait latches stay, or a wait on the busy line was entered and they are those of R144 for a reading of the clock. -/
theorem step_latches :
    t.latches = s.latches ∨
    (s.params.hasAux = true ∧ (∃ o, t.seq = .waitAux o ∧ s.seq ≠ .waitAux o) ∧
      ∃ ms, t.latches = some (latchWait s.params.timeoutMs s.params.clkMod (ms % s.params.clkMod))) := by
  cases step_transition h
  case accepts hidle _ _ eq =>
    obtain ⟨-, ⟨-, ht⟩ | ⟨c, -, ht⟩ | ⟨a, -, ht⟩⟩ := exec_cases eq <;> rw [ht]
    · exact .inl rfl
    · exact .inl rfl
    · exact (enterWait_latches _ (takeCommand s)).imp_right
        fun ⟨haux, hseq, hnew⟩ => ⟨haux, ⟨_, hseq, by simp [hidle]⟩, hnew⟩
  case settled2 c l seq eq =>
    rw [eq]
    exact (enterWait_latches _ (hold s.params.settleMs s)).imp_right
      fun ⟨haux, hseq, hnew⟩ => ⟨haux, ⟨_, hseq, by simp [State.seq_of seq]⟩, hnew⟩
  case skips seq _ _ _ eq | drives seq _ _ _ eq => simp [eq, State.latches_of seq]
  case waits eq | rejects eq | settled1 eq | badTarget eq | pollReady eq | pollExpired eq | pollAgain eq
      | fallback eq => simp [eq]

/-- TGT stays, or a SET_MODE was accepted (R31, R131). -/
theorem step_tgt : t.tgt = s.tgt ∨ (s.seq = .idle ∧ t.seq = .settle1) := by
  cases step_transition h
  case accepts hidle _ _ eq =>
    obtain ⟨-, ⟨-, ht⟩ | ⟨c, -, ht⟩ | ⟨a, -, ht⟩⟩ := exec_cases eq <;> rw [ht]
    · exact .inl rfl
    · exact .inr ⟨hidle, rfl⟩
    · simp [enterWait_frame]
  case settled1 seq eq | skips seq _ _ _ eq | drives seq _ _ _ eq | settled2 seq eq => simp [eq, State.tgt_of seq]
  case waits eq | rejects eq | badTarget eq | pollReady eq | pollExpired eq | pollAgain eq | fallback eq => simp [eq]

/-- STATUS stays, or an operation has ended with a status of the block (R34, R170, R175). -/
theorem step_status : t.status = s.status ∨ (t.seq = .idle ∧ ∃ r, t.status = some r ∧ r.ofBlock = true) := by
  cases step_transition h
  case accepts hidle _ _ eq =>
    obtain ⟨-, ⟨hi, ht⟩ | ⟨c, -, ht⟩ | ⟨a, -, ht⟩⟩ := exec_cases eq
    · exact .inr ⟨by rw [ht]; exact hidle, (exec_oneStepEffect hi eq).status_ofBlock⟩
    · exact .inl (by rw [ht]; rfl)
    · simp [ht, enterWait_frame]
  case rejects eq | badTarget eq | pollReady eq | pollExpired eq | fallback eq => simp [eq, Status.ofBlock]
  case waits eq | settled1 eq | drives eq | skips eq | settled2 eq | pollAgain eq => simp [eq]

/-- A busy sequencer comes to IDLE with one of the three statuses of R150. -/
theorem step_busy_returns (hbusy : s.seq ≠ .idle) (hidle : t.seq = .idle) :
    t.status = some .success ∨ t.status = some .timeout ∨ t.status = some .invalidParameter := by
  cases step_transition h
  case waits seq _ _ | accepts seq _ _ _ | rejects seq _ _ _ => exact absurd seq hbusy
  case settled1 eq | drives eq | skips eq => simp [eq] at hidle
  case settled2 eq =>
    rw [eq] at hidle
    exact absurd hidle (enterWait_busy _ _)
  case pollAgain seq _ _ eq => simp [eq, State.seq_of seq] at hidle
  case badTarget eq | pollReady eq | pollExpired eq | fallback eq => simp [eq]

/-- CUR_MODE stays, or the wait of a SET_MODE has ended (R29, R140). -/
theorem step_curMode : t.curMode = s.curMode ∨ s.seq.afterAssert = true := by
  cases step_transition h
  case waits seq _ _ | accepts seq _ _ _ | rejects seq _ _ _ =>
    obtain ⟨-, -, hmode, -⟩ := step_idle_frame h seq
    exact .inl hmode
  case pollReady w l seq _ eq | fallback w l seq eq =>
    cases w with
    | setMode c => exact .inr (by rw [State.seq_of seq]; rfl)
    | waitReady ot => simp [eq, waitSucceeded_eq]
  case settled1 eq | badTarget eq | drives eq | skips eq | settled2 eq | pollExpired eq | pollAgain eq => simp [eq]

/-- BUF_OUT and its length stay, or an encoder has filled them (R27, R100, R120). -/
theorem step_bufOut :
    (t.results.bufOut = s.results.bufOut ∧ t.results.bufOutLen = s.results.bufOutLen) ∨
    (∃ hdr cfg, t.results.bufOut = packCfg hdr cfg ∧ t.results.bufOutLen = some 11) ∨
    ∃ hdr info, t.results.bufOut = packInfo hdr info ∧ t.results.bufOutLen = some 6 := by
  by_cases hidle : s.seq = .idle
  · obtain eq | eq | ⟨i, hexec⟩ := step_idle_cases h hidle
    · simp [eq]
    · simp [eq]
    · obtain ⟨-, ⟨hi, -⟩ | ⟨c, -, ht⟩ | ⟨a, -, ht⟩⟩ := exec_cases hexec
      · cases exec_oneStepEffect hi hexec with
        | encCfg _ _ results => exact .inr (.inl ⟨_, _, by rw [results]; exact ⟨rfl, rfl⟩⟩)
        | encInfo _ _ results => exact .inr (.inr ⟨_, _, by rw [results]; exact ⟨rfl, rfl⟩⟩)
        | decCfg _ _ results | decInfo _ _ results | hdrChk _ _ results | chanFreq _ _ results => simp [results]
      · simp [ht]
      · simp [ht, enterWait_frame]
  · obtain ⟨-, -, hresults⟩ := step_busy_frame h hidle
    simp [hresults]

/-- A wait is entered on the busy line exactly where one is wired (R139). -/
theorem step_wait_wired :
    (∀ o, t.seq = .waitAux o → s.seq = .waitAux o ∨ s.params.hasAux = true) ∧
    ∀ o, t.seq = .waitFallback o → s.params.hasAux = false := by
  cases step_transition h
  case accepts hidle _ _ eq =>
    obtain ⟨-, ⟨-, ht⟩ | ⟨c, -, ht⟩ | ⟨a, -, ht⟩⟩ := exec_cases eq <;> rw [ht]
    · simp [State.seq_mk, hidle]
    · simp
    · obtain ⟨haux, hfallback⟩ := enterWait_wired (.waitReady (takeCommand s).tgt) (takeCommand s)
      exact ⟨fun o hseq => .inr (haux o hseq), hfallback⟩
  case settled2 c l seq eq =>
    rw [eq]
    obtain ⟨haux, hfallback⟩ := enterWait_wired (.setMode c) (hold s.params.settleMs s)
    exact ⟨fun o hseq => .inr (haux o hseq), hfallback⟩
  case waits hidle _ eq => simp [eq, hidle]
  case pollAgain seq _ _ eq => simp [eq, State.seq_of seq]
  case rejects eq | settled1 eq | badTarget eq | drives eq | skips eq | pollReady eq | pollExpired eq | fallback eq =>
    simp [eq]

/-- A phase after ASSERT is reached with the target found by ASSERT, its pattern on the lines if they are wired, or from
another such phase with the same target (R135, R136). -/
theorem step_afterAssert (hafter : t.seq.afterAssert = true) :
    (s.seq.afterAssert = true ∧ t.tgt = s.tgt) ∨
    ∃ c : Byte, t.tgt = some c ∧ c.toNat < 4 ∧
      (s.params.hasM0 = true → t.m0 = some (targetM0 c) ∧ t.m1 = some (targetM1 c)) := by
  cases step_transition h
  case drives c l m _ mode _ _ eq => exact .inr ⟨c, by simp [eq], toNat_lt_of_modeOf mode, fun _ => by simp [eq]⟩
  case skips c l m _ mode wired0 _ eq =>
    exact .inr ⟨c, by simp [eq], toNat_lt_of_modeOf mode, fun hwired => by simp [wired0] at hwired⟩
  case settled2 seq eq => exact .inl ⟨by rw [State.seq_of seq]; rfl, by simp [eq, State.tgt_of seq]⟩
  case pollAgain eq => exact .inl ⟨by simpa [eq] using hafter, by simp [eq]⟩
  case accepts hidle _ _ eq =>
    obtain ⟨-, ⟨-, ht⟩ | ⟨c, -, ht⟩ | ⟨a, -, ht⟩⟩ := exec_cases eq <;> rw [ht] at hafter
    · simp [State.seq_mk, hidle, Phase.afterAssert] at hafter
    · cases hafter
    · simp [enterWait_waitReady_not_afterAssert] at hafter
  case waits hidle _ eq => simp [eq, hidle, Phase.afterAssert] at hafter
  case rejects eq | settled1 eq | badTarget eq | pollReady eq | pollExpired eq | fallback eq =>
    simp [eq, Phase.afterAssert] at hafter

end

/-! ## The registers over every step -/

/-- Settles O46: of the transitions only the drive of ASSERT touches a line. -/
theorem linesChangeOnlyInAssert : Obligations.LinesChangeOnlyInAssert := by
  intro s t h hchanged
  obtain ⟨hm0, hm1⟩ | ⟨hseq, hw0, hw1, hseq', -⟩ := step_lines h
  · simp [hm0, hm1] at hchanged
  · exact ⟨hseq, hw0, hw1, hseq'⟩

/-- Settles O47: TGT is latched where a SET_MODE is accepted, the wait latches where a wait on the busy line is entered. -/
theorem targetAndWaitLatchesAreWrittenOnEntryOnly : Obligations.TargetAndWaitLatchesAreWrittenOnEntryOnly := by
  intro s t h
  constructor
  · exact (step_tgt h).resolve_left
  · intro hchanged
    obtain ⟨-, hentered, -⟩ := (step_latches h).resolve_left hchanged
    exact hentered

/-- Settles O48: every writer of STATUS is a return (D31). -/
theorem statusIsWrittenAtTheEndOnly : Obligations.StatusIsWrittenAtTheEndOnly := by
  intro s t h
  exact ⟨fun hchanged => ((step_status h).resolve_left hchanged).1, step_busy_returns h⟩

/-- Settles O49: the frames of an idle and of a busy sequencer. -/
theorem runningOperationsTouchNoPort : Obligations.RunningOperationsTouchNoPort := by
  intro s t h
  obtain ⟨hparams, hports⟩ := step_frame h
  refine ⟨hparams, hports, fun hbusy => ?_, fun k => by rw [hports]⟩
  obtain ⟨-, -, hresults⟩ := step_busy_frame h hbusy
  exact hresults

/-! ## The invariant -/

/-- ENC_CFG fills all of BUF_OUT (R100). -/
theorem packCfg_get_ne_none (hdr : HdrOperand) (cfg : CfgOperand) (i : Fin 11) : (packCfg hdr cfg).get i ≠ none := by
  fin_cases i <;> exact nofun

/-- ENC_INFO fills the first six bytes of BUF_OUT and leaves the others `none` (R120). -/
theorem packInfo_get_ne_none_iff (hdr : HdrOperand) (info : InfoOperand) (i : Fin 11) :
    (packInfo hdr info).get i ≠ none ↔ i.val < 6 := by
  fin_cases i <;> simp [packInfo, Vector.get]

/-- The latches of a wait keep the reading they were written for (R144). -/
@[simp] theorem latchWait_t0 (timeoutMs clkMod t0 : Nat) : (latchWait timeoutMs clkMod t0).t0 = t0 := by
  unfold latchWait
  split <;> rfl

section
variable {s t : State} (hinv : Inv s) (h : step s = .next t)
include hinv h

/-- The clock stays in its range (R36). -/
theorem step_keeps_clockInRange : t.clock < t.params.clkMod := by
  obtain ⟨-, hlt, -⟩ := hinv.paramsOk
  obtain ⟨hparams, -⟩ := step_frame h
  rw [hparams]
  obtain hclock | ⟨ms, hclock⟩ := step_clock h <;> rw [hclock]
  · exact hinv.clockInRange
  · exact Nat.mod_lt _ (by omega)

/-- The wait latches stay those of R144 (R32). -/
theorem step_keeps_latchesOfWait (l : Latches) (hl : t.latches = some l) :
    l.t0 < t.params.clkMod ∧ l = latchWait t.params.timeoutMs t.params.clkMod l.t0 := by
  obtain ⟨-, hlt, -⟩ := hinv.paramsOk
  obtain ⟨hparams, -⟩ := step_frame h
  rw [hparams]
  obtain hsame | ⟨-, -, ms, hnew⟩ := step_latches h
  · exact hinv.latchesOfWait l (hsame ▸ hl)
  · obtain rfl : _ = l := Option.some.inj (hnew.symm.trans hl)
    simp only [latchWait_t0, and_true]
    exact Nat.mod_lt _ (by omega)

/-- Without a busy line the wait latches stay unwritten (R147). -/
theorem step_keeps_latchesNeedAux (haux : t.params.hasAux = false) : t.latches = none := by
  obtain ⟨hparams, -⟩ := step_frame h
  rw [hparams] at haux
  obtain hsame | ⟨hwired, -⟩ := step_latches h
  · rw [hsame, hinv.latchesNeedAux haux]
  · simp [haux] at hwired

/-- WAIT_AUX is still a phase only where a busy line is wired (R139). -/
theorem step_keeps_waitAuxWired (o : Origin) (hseq : t.seq = .waitAux o) : t.params.hasAux = true := by
  obtain ⟨hparams, -⟩ := step_frame h
  rw [hparams]
  exact ((step_wait_wired h).1 o hseq).elim (hinv.waitAuxWired o) id

/-- After ASSERT the target stays legal and on the wired lines (R135, R136): only ASSERT, which comes before, drives them. -/
theorem step_keeps_targetAsserted (hafter : t.seq.afterAssert = true) :
    ∃ c : Byte, t.tgt = some c ∧ c.toNat < 4 ∧
      (t.params.hasM0 = true → t.m0 = some (c.getLsbD 0) ∧ t.m1 = some (c.getLsbD 1)) := by
  obtain ⟨hparams, -⟩ := step_frame h
  rw [hparams]
  obtain ⟨hbefore, htgt⟩ | hasserted := step_afterAssert h hafter
  · obtain ⟨hm0, hm1⟩ | ⟨hassert, -⟩ := step_lines h
    · rw [htgt, hm0, hm1]
      exact hinv.targetAsserted hbefore
    · rw [hassert] at hbefore
      cases hbefore
  · exact hasserted

/-- Absent lines stay undriven (R33, R134). -/
theorem step_keeps_absentLinesUndriven (habsent : t.params.hasM0 = false) : t.m0 = none ∧ t.m1 = none := by
  obtain ⟨hparams, -⟩ := step_frame h
  rw [hparams] at habsent
  obtain ⟨hm0, hm1⟩ | ⟨-, hwired, -⟩ := step_lines h
  · rw [hm0, hm1]
    exact hinv.absentLinesUndriven habsent
  · simp [habsent] at hwired

/-- The lines stay driven both or not at all (R136). -/
theorem step_keeps_linesTogether : t.m0.isSome = t.m1.isSome := by
  obtain ⟨hm0, hm1⟩ | ⟨-, -, -, -, v0, v1, hm0, hm1⟩ := step_lines h <;> rw [hm0, hm1]
  · exact hinv.linesTogether
  · rfl

/-- A mode that is recorded on wired lines was driven on them (R29, R136). -/
theorem step_keeps_recordedModeDriven (hmode : t.curMode ≠ .unknown) (hwired : t.params.hasM0 = true) : t.m0 ≠ none := by
  obtain ⟨hparams, -⟩ := step_frame h
  rw [hparams] at hwired
  refine step_keeps_m0_driven h ?_
  obtain hsame | hafter := step_curMode h
  · exact hinv.recordedModeDriven (hsame ▸ hmode) hwired
  · obtain ⟨c, -, -, hlines⟩ := hinv.targetAsserted hafter
    simp [(hlines hwired).1]

/-- BUF_OUT_LEN stays none, 6 or 11 (R27). -/
theorem step_keeps_outLenLegal :
    t.results.bufOutLen = none ∨ t.results.bufOutLen = some 6 ∨ t.results.bufOutLen = some 11 := by
  obtain ⟨-, hlen⟩ | ⟨-, -, -, hlen⟩ | ⟨-, -, -, hlen⟩ := step_bufOut h
  · exact hlen ▸ hinv.outLenLegal
  · exact .inr (.inr hlen)
  · exact .inr (.inl hlen)

/-- BUF_OUT stays filled exactly below BUF_OUT_LEN (R27, R100, R120). -/
theorem step_keeps_outFilled (i : Fin 11) :
    t.results.bufOut.get i ≠ none ↔ ∃ n, t.results.bufOutLen = some n ∧ i.val < n := by
  obtain ⟨hout, hlen⟩ | ⟨hdr, cfg, hout, hlen⟩ | ⟨hdr, info, hout, hlen⟩ := step_bufOut h <;> rw [hout, hlen]
  · exact hinv.outFilled i
  · exact iff_of_true (packCfg_get_ne_none hdr cfg i) ⟨11, rfl, i.isLt⟩
  · simpa using packInfo_get_ne_none_iff hdr info i

/-- STATUS stays none or a status of the block (R34, R170). -/
theorem step_keeps_statusOfBlock (r : Status) (hr : t.status = some r) : r.ofBlock = true := by
  obtain hsame | ⟨-, r', hr', hblock⟩ := step_status h
  · exact hinv.statusOfBlock r (hsame ▸ hr)
  · rw [hr'] at hr
    exact Option.some.inj hr ▸ hblock

end

/-- Settles O55: clause by clause from what a step can write to the registers each clause speaks of. -/
theorem everyStepKeepsTheInvariant : Obligations.EveryStepKeepsTheInvariant := by
  intro s t hinv h
  obtain ⟨hparams, hports⟩ := step_frame h
  exact {
    paramsOk := hparams ▸ hinv.paramsOk
    bufInWf := hports ▸ hinv.bufInWf
    clockInRange := step_keeps_clockInRange hinv h
    latchesOfWait := step_keeps_latchesOfWait hinv h
    latchesNeedAux := step_keeps_latchesNeedAux hinv h
    waitAuxWired := step_keeps_waitAuxWired hinv h
    fallbackUnwired := hparams ▸ (step_wait_wired h).2
    targetAsserted := step_keeps_targetAsserted hinv h
    absentLinesUndriven := step_keeps_absentLinesUndriven hinv h
    linesTogether := step_keeps_linesTogether hinv h
    recordedModeDriven := step_keeps_recordedModeDriven hinv h
    outLenLegal := step_keeps_outLenLegal hinv h
    outFilled := step_keeps_outFilled hinv h
    statusOfBlock := step_keeps_statusOfBlock hinv h }

/-! ## What the host reads (R29, R34, R170) -/

/-- No two outcomes share a code: the codes count the outcomes in the source's order, from 1 (R170). -/
theorem statusCode_injective : Function.Injective statusCode :=
  Function.LeftInverse.injective (g := fun code => Status.ofNat (code.toNat - 1)) fun r => by cases r <;> rfl

/-- The codes of the statuses the block returns (R170, third column). -/
theorem statusCode_of_ofBlock {r : Status} (hr : r.ofBlock = true) :
    (statusCode r).toNat ∈ [1, 3, 6, 7, 9, 11, 17] := by
  revert hr
  cases r <;> decide

/-- Settles O51: the port is the code of STATUS, and the invariant holds STATUS to the statuses of the block. -/
theorem statusPortShowsTheCodeOfTheLastOutcome : Obligations.StatusPortShowsTheCodeOfTheLastOutcome := by
  refine ⟨fun s hs => by simp [hostReadsStatus, hs], fun s r hr => ?_, fun s u hread => ?_, fun s t hinv h b hb => ?_⟩
  · cases r <;> simp [hostReadsStatus, hr, statusCode]
  · exact Option.map_injective statusCode_injective hread
  · obtain ⟨r, hr, rfl⟩ := Option.map_eq_some_iff.mp hb
    exact statusCode_of_ofBlock (step_keeps_statusOfBlock hinv h r hr)

/-- The codes of CUR_MODE on its port are 0 to 3 and 7 (D12). -/
theorem modePort_toNat_notMem (m : Mode) : (modePort m).toNat ∉ [4, 5, 6] := by
  cases m <;> decide

/-- No two modes share a code: 0 to 3 are the target codes of their modes, and 7 is none (D12). -/
theorem modePort_injective : Function.Injective modePort :=
  Function.LeftInverse.injective (g := fun code => (modeOf (code.setWidth 8)).getD .unknown) fun m => by cases m <;> rfl

/-- A target code is read on the port as itself (R81, D12). -/
theorem modePort_of_modeOf {c : Byte} {m : Mode} (hm : modeOf c = some m) : modePort m = BitVec.ofNat 3 c.toNat := by
  unfold modeOf at hm
  split at hm <;> cases hm <;> rw [‹c.toNat = _›] <;> rfl

/-- What the port gives while the sequencer is idle (R29). -/
theorem hostReadsMode_idle {s : State} (hs : s.seq = .idle) : hostReadsMode s = some (modePort s.curMode) := if_pos hs

/-- Settles O52: while idle the port is the injective code of CUR_MODE. -/
theorem modePortIsReadWhileIdle : Obligations.ModePortIsReadWhileIdle := by
  refine ⟨fun s hs => ?_, fun s hs => if_neg hs, fun s b hb => ?_, fun s c m hs hm => ?_⟩
  · rw [hostReadsMode_idle hs]
    cases s.curMode <;> rfl
  · by_cases hs : s.seq = .idle
    · cases (hostReadsMode_idle hs).symm.trans hb
      exact modePort_toNat_notMem s.curMode
    · cases (if_neg hs : hostReadsMode s = none).symm.trans hb
  · rw [hostReadsMode_idle hs, ← modePort_of_modeOf hm, Option.some_inj, modePort_injective.eq_iff]

/-- Settles O53: each is a field of the reset state; BUF_OUT byte by byte (D22). -/
theorem resetLeavesTheStatedValues : Obligations.ResetLeavesTheStatedValues :=
  ⟨rfl, rfl, rfl, rfl, rfl, rfl, rfl, rfl, rfl, rfl, rfl, rfl, reset_bufOut_get⟩

end Sys2Proof.Machine
end

/-!
The memory family (spec/20_memory.md): the acceptance of a command word by an idle and by a busy sequencer (R58, R60), the
events a step adds to the record (R58), and the registers that travel in a frame (R51).
-/

section
namespace Sys2Proof.Machine

/-! ## The command port of a busy sequencer (R60) -/

/-- The state with `cmd` on the command port, put there by the host (R85). -/
def withCommand (cmd : Option Word) (s : State) : State := { s with cmd := cmd }

section
variable (cmd : Option Word) (s : State)

@[simp] theorem withCommand_params : (withCommand cmd s).params = s.params := rfl
@[simp] theorem withCommand_cmd : (withCommand cmd s).cmd = cmd := rfl
@[simp] theorem withCommand_self : withCommand s.cmd s = s := rfl

/-! Each operation a phase is made of commutes with a command the host presents. -/

theorem drivePair_withCommand (v0 v1 : Bool) :
    drivePair v0 v1 (withCommand cmd s) = withCommand cmd (drivePair v0 v1 s) := by
  rw [drivePair_eq, drivePair_eq]
  rfl

theorem enterWait_withCommand (w : Waiter) : enterWait w (withCommand cmd s) = withCommand cmd (enterWait w s) := by
  cases haux : s.params.hasAux with
  | true =>
    rw [enterWait_aux haux, enterWait_aux (s := withCommand cmd s) haux]
    rfl
  | false =>
    rw [enterWait_fallback haux, enterWait_fallback (s := withCommand cmd s) haux]
    rfl

theorem waitSucceeded_withCommand (w : Waiter) :
    waitSucceeded w (withCommand cmd s) = withCommand cmd (waitSucceeded w s) := by
  cases w <;> rfl

/-- A poll samples the same level and, if it is low, holds the same reading against the same latches. -/
theorem pollAux_withCommand (w : Waiter) (l : Latches) :
    pollAux w l (withCommand cmd s) = withCommand cmd (pollAux w l s) := by
  cases haux : auxLevel s with
  | true =>
    rw [pollAux_high haux, pollAux_high (s := withCommand cmd s) haux]
    exact waitSucceeded_withCommand cmd (afterSample s) w
  | false =>
    rw [pollAux_low haux, pollAux_low (s := withCommand cmd s) haux, apply_ite (withCommand cmd)]
    rfl

end

/-- ASSERT asks for the target and the wiring only (R134 to R137). -/
theorem assertTarget_withCommand {c : Byte} {s t : State} (h : assertTarget c s = .next t) (cmd : Option Word) :
    assertTarget c (withCommand cmd s) = .next (withCommand cmd t) := by
  unfold assertTarget at h
  split at h
  · rename_i hmode
    cases h
    exact if_pos hmode
  · rename_i hmode
    split at h
    · rename_i h0 h1
      cases h
      simp only [assertTarget, hmode, if_false, withCommand_params, h0, h1, drivePair_withCommand]
      rfl
    · rename_i h0 h1
      cases h
      simp only [assertTarget, hmode, if_false, withCommand_params, h0, h1]
      rfl
    · cases h

/-- What stands on the command port makes no difference to the step of a busy sequencer. -/
theorem step_withCommand {s t : State} (hbusy : s.seq ≠ .idle) (h : step s = .next t) (cmd : Option Word) :
    step (withCommand cmd s) = .next (withCommand cmd t) := by
  cases hq : s.sequencer with
  | idle => exact absurd (State.seq_of hq) hbusy
  | settle1 c l =>
    cases (step_settle1 hq).symm.trans h
    exact step_settle1 (s := withCommand cmd s) hq
  | assert c l =>
    rw [step_assert hq] at h
    exact (step_assert (s := withCommand cmd s) hq).trans (assertTarget_withCommand h cmd)
  | settle2 c l =>
    cases (step_settle2 hq).symm.trans h
    exact (step_settle2 (s := withCommand cmd s) hq).trans
      (congrArg _ (enterWait_withCommand cmd (hold s.params.settleMs s) (.setMode c)))
  | waitAux w l =>
    cases (step_waitAux hq).symm.trans h
    exact (step_waitAux (s := withCommand cmd s) hq).trans (congrArg _ (pollAux_withCommand cmd s w l))
  | waitFallback w l =>
    cases (step_waitFallback hq).symm.trans h
    exact (step_waitFallback (s := withCommand cmd s) hq).trans
      (congrArg _ (waitSucceeded_withCommand cmd (hold s.params.fallbackMs s) w))

/-- Settles O7: `exec` refuses through `whenIdle`; a step that makes no difference of the command leaves the one that stands
on the port (D23, log 9). -/
theorem busySequencerTakesNoCommand : Obligations.BusySequencerTakesNoCommand := by
  intro s hbusy
  refine ⟨exec_busy hbusy, fun t h => ⟨?_, step_withCommand hbusy h⟩⟩
  have hsame : step s = .next (withCommand s.cmd t) := by
    simpa only [withCommand_self] using step_withCommand hbusy h s.cmd
  have ht : t = withCommand s.cmd t := Host.Outcome.next.inj (h.symm.trans hsame)
  rw [ht, withCommand_cmd]

/-! ## The command port of an idle sequencer (R58) -/

/-- Settles O5: the step is the operation on the state whose word has been taken (log 8). -/
theorem stepRunsTheDecodedCommand : Obligations.StepRunsTheDecodedCommand := by
  intro s w i hidle hcmd hdec
  simp only [step, hidle, hcmd, hdec]
  rfl

/-! ## The record of events (R58, log 7) -/

/-- The two drives are recorded in one of their two orders (R136, D16). -/
theorem drivePair_events (v0 v1 : Bool) (s : State) :
    ∃ new, (drivePair v0 v1 s).events = s.events ++ new ∧
      (new = [.drive .m0 v0, .drive .m1 v1] ∨ new = [.drive .m1 v1, .drive .m0 v0]) := by
  rw [drivePair_eq]
  exact ⟨_, rfl, ite_eq_or_eq ..⟩

/-- Entry to a wait records the reading of T0 if a busy line is wired, and nothing otherwise (R139, R144). -/
theorem enterWait_events (w : Waiter) (s : State) :
    (enterWait w s).events =
      s.events ++ if s.params.hasAux = true then [.clock (enterWait w s).clock] else [] := by
  cases haux : s.params.hasAux with
  | true => simp [enterWait_aux haux]
  | false => simp [enterWait_fallback haux]

/-- The end of a wait that went well is no event (R140). -/
@[simp] theorem waitSucceeded_events (w : Waiter) (s : State) : (waitSucceeded w s).events = s.events := by
  rw [waitSucceeded_eq]

/-- An operation records nothing in the step that accepts it, but for a WAIT_READY that enters WAIT_AUX (R148). -/
theorem exec_events {i : Instr} {s t : State} (h : exec i s = .next t) :
    t.events = s.events ++ if t.seq = .waitAux .waitReady then [.clock t.clock] else [] := by
  obtain ⟨hidle, ⟨-, ht⟩ | ⟨c, -, ht⟩ | ⟨a, -, ht⟩⟩ := exec_cases h <;> rw [ht]
  · simp [State.seq_mk, hidle]
  · simp
  · rw [enterWait_events]
    obtain ⟨haux, hseq, -⟩ | ⟨haux, hseq, -⟩ := enterWait_cases (.waitReady s.tgt) s <;> simp [haux, hseq]

/-- Settles O50: the events of each transition, in the order of the operations it is made of (D16, D18). -/
theorem eventsAreAppendedInPseudocodeOrder : Obligations.EventsAreAppendedInPseudocodeOrder := by
  intro s t h
  cases step_transition h
  case waits hidle _ eq => exact ⟨[], by simp [eq], by simp [eq, hidle]⟩
  case accepts hidle _ _ eq =>
    rw [hidle]
    exact ⟨_, exec_events (s := takeCommand s) eq, rfl⟩
  case rejects hidle _ _ eq => exact ⟨[], by simp [eq], by simp [eq, hidle]⟩
  case settled1 seq eq =>
    rw [State.seq_of seq]
    exact ⟨_, by rw [eq]; rfl, rfl⟩
  case badTarget seq _ eq => exact ⟨[], by simp [eq], by simp [eq, State.seq_of seq]⟩
  case drives c l m seq _ wired0 _ eq =>
    obtain ⟨new, hnew, horder⟩ := drivePair_events (targetM0 c) (targetM1 c) s
    refine ⟨new, by rw [eq]; exact hnew, ?_⟩
    simp only [State.seq_of seq, Sequencer.phase_assert]
    rw [if_pos ⟨by rw [eq]; rfl, wired0⟩]
    exact ⟨c, State.tgt_of seq, horder⟩
  case skips seq _ wired0 _ eq => exact ⟨[], by simp [eq], by simp [eq, State.seq_of seq, wired0]⟩
  case settled2 c l seq eq =>
    rw [State.seq_of seq, eq]
    exact ⟨_, by rw [endSettle2, enterWait_events, hold_events, List.append_assoc]; rfl, rfl⟩
  case pollReady w l seq aux eq =>
    rw [State.seq_of seq]
    exact ⟨[.sample true], by simp [eq, aux], .inl ⟨rfl, by simp [eq], by simp [eq]⟩⟩
  case pollExpired w l seq aux _ eq | pollAgain w l seq aux _ eq =>
    rw [State.seq_of seq]
    exact ⟨[.sample false, .clock t.clock], by simp [eq, aux], .inr rfl⟩
  case fallback seq eq =>
    rw [State.seq_of seq]
    exact ⟨[.hold s.params.fallbackMs], by simp [eq], rfl⟩

/-! ## The registers in a frame (R51) -/

section
variable (base : Byte) {frameLen i k : Nat}

/-- Byte 3 + k within the frame carries register base + k. -/
theorem registerInFrame_data (h : 3 + k < frameLen) : registerInFrame base frameLen (3 + k) = some (base.toNat + k) := by
  rw [registerInFrame, if_pos ⟨by omega, h⟩, Nat.add_sub_cancel_left]

/-- The header bytes and the bytes past the frame carry none. -/
theorem registerInFrame_outside (h : i < 3 ∨ frameLen ≤ i) : registerInFrame base frameLen i = none :=
  if_neg (by omega)

end

/-- Settles O59: for both blocks, their frames being 3 bytes longer than the blocks. -/
theorem frameBytesCarryTheRegistersOfTheirBlock : Obligations.FrameBytesCarryTheRegistersOfTheirBlock := by
  intro p
  refine ⟨fun k hk => registerInFrame_data _ ?_, fun k hk => registerInFrame_data _ ?_,
    fun i hi => registerInFrame_outside _ hi, fun i hi => registerInFrame_outside _ hi⟩
  · exact Nat.add_lt_add_left hk 3
  · exact Nat.add_lt_add_left hk 3

end Sys2Proof.Machine
end

/-!
The encoding family (spec/30_encoding.md): command words and their operations (R84 to R87, R91), the bits of a configuration
frame (R74, R82, R83), the targets of SET_MODE (R80, R88), and the mode envelope CFG_ENTER, CFG_LEAVE (R92).
-/

section
namespace Sys2Proof

/-! ## Command words (R84 to R87, R91) -/

/-- The OP column of the opcode map, as numbers (R86). -/
def legalOps : List Nat := [0x01, 0x02, 0x03, 0x04, 0x10, 0x11, 0x20, 0x21]

/-- Every operation's OP is in the map (R86). -/
theorem opcode_mem_legalOps (i : Instr) : (opcode i).toNat ∈ legalOps := by
  cases i <;> simp [opcode, legalOps]

/-- A presented length that is well-formed is not cut by its eight bits (R84). -/
theorem argument_length {n : Nat} (h : n < 256) : (BitVec.ofNat 8 n).toNat = n :=
  (BitVec.toNat_ofNat n 8).trans (Nat.mod_eq_of_lt h)

/-- Decoding the word of an operation gives the operation back (R85, R86). -/
theorem decode_encode {i : Instr} (h : i.wf = true) : decode (encode i) = .ok i := by
  rw [decode, opOf_encode, argOf_encode]
  cases i with
  | decCfg n | decInfo n =>
    have hn : n < 256 := by simpa [Instr.wf] using h
    simp [opcode, argument, argument_length hn]
  | encCfg | encInfo | setMode | waitReady | hdrChk | chanFreq => rfl

/-- A word that decodes has the OP and the ARG of its operation (R85, R86). -/
theorem decode_ok {w : Word} {i : Instr} (h : decode w = .ok i) :
    i.wf = true ∧ opcode i = opOf w ∧ argument i = argOf w := by
  have hlen : (argOf w).toNat < 256 := (argOf w).isLt
  unfold decode at h
  split at h
  case h_9 => cases h
  all_goals
    rename_i hop
    cases h
    exact ⟨by simp [Instr.wf, hlen], BitVec.eq_of_toNat_eq hop.symm, by simp [argument]⟩

/-- An OP in the map decodes (R86). -/
theorem decode_of_legalOp {w : Word} (h : w.toNat / 256 ∈ legalOps) : ∃ i, decode w = .ok i := by
  simp only [legalOps, List.mem_cons, List.not_mem_nil, or_false] at h
  rw [decode, opOf_toNat]
  obtain h | h | h | h | h | h | h | h := h <;> rw [h] <;> exact ⟨_, rfl⟩

/-- An OP outside the map is rejected by name (R87). -/
theorem decode_of_illegalOp {w : Word} (h : w.toNat / 256 ∉ legalOps) : decode w = .error (.illegalOp (opOf w)) := by
  cases hdec : decode w with
  | ok i =>
    obtain ⟨-, hop, -⟩ := decode_ok hdec
    exact absurd (opcode_mem_legalOps i) (by rwa [hop, opOf_toNat])
  | error e =>
    unfold decode at hdec
    split at hdec <;> cases hdec
    rfl

/-- Settles O1: OP and ARG are read back from the word, and they name the operation. -/
theorem decodingAnEncodedOperationGivesItBack : Obligations.DecodingAnEncodedOperationGivesItBack :=
  fun _ => decode_encode

/-- Settles O2: the operation has the word's OP and ARG, and a word is these two joined. -/
theorem acceptedWordIsTheWordOfItsOperation : Obligations.AcceptedWordIsTheWordOfItsOperation := by
  intro w i h
  obtain ⟨hwf, hop, harg⟩ := decode_ok h
  exact ⟨hwf, by rw [encode, hop, harg, opOf_append_argOf]⟩

/-- Settles O3: an OP in the map decodes, and one outside it gives an error. -/
theorem decoderRejectsExactlyOpsOutsideTheMap : Obligations.DecoderRejectsExactlyOpsOutsideTheMap := by
  intro w
  constructor
  · intro hrejects hop
    obtain ⟨i, hi⟩ := decode_of_legalOp hop
    exact hrejects i hi
  · intro hop i hi
    cases (decode_of_illegalOp hop).symm.trans hi

/-- Settles O4: each word is evaluated (R91, D9). -/
theorem wordsWrittenInTheSpecDecode : Obligations.WordsWrittenInTheSpecDecode :=
  ⟨rfl, rfl, rfl, rfl, rfl, rfl, rfl, rfl⟩

namespace Machine

/-- Settles O6: the decoder rejects the word, and NotSupported is returned on an idle sequencer (D10, log 8). -/
theorem illegalOpReturnsNotSupported : Obligations.IllegalOpReturnsNotSupported := by
  intro s w hidle hcmd hop
  have hreject : step s = rejectCommand (takeCommand s) := by
    simp only [step, hidle, hcmd, decode_of_illegalOp hop]
  rw [hreject, rejectCommand, returnStatus_idle (s := takeCommand s) hidle]
  rfl

/-! ## The configuration frame (R74, R82, R83) -/

/-- ENC_CFG on an idle sequencer (R100). -/
theorem exec_encCfg_idle {s : State} (hidle : s.seq = .idle) (arg : Byte) :
    exec (.encCfg arg) s = .next
      { s with
        status := some .success
        results := { s.results with bufOut := packCfg s.ports.hdr s.ports.cfg, bufOutLen := some Config.cfgFrameLen } } := by
  rw [exec, execEncCfg, whenIdle_idle hidle, returnStatus_idle (by exact hidle)]

/-- DEC_CFG on an idle sequencer (R104, R106). -/
theorem exec_decCfg_idle {s : State} (hidle : s.seq = .idle) (n : Nat) :
    exec (.decCfg n) s = .next
      { s with
        status := some (lengthStatus n Config.cfgFrameLen)
        results := { s.results with
          hdr := if n = Config.cfgFrameLen then some (unpackHdr s) else none
          cfg := if n = Config.cfgFrameLen then some (unpackCfg s) else none } } := by
  rw [exec, execDecCfg, whenIdle_idle hidle, returnStatus_idle (by exact hidle)]

/-! ### Bits with no field (R74) -/

/-- Fields at the places of OPTION leave bits 4 to 2 zero. -/
theorem option_fields_fieldless : ∀ a < 4, ∀ b < 2, ∀ c < 4, (a * 64 + b * 32 + c) &&& 0x1C = 0 := by decide

/-- Fields at the places of TRANS_MODE leave bits 5 and 3 zero. -/
theorem transMode_fields_fieldless : ∀ a < 2, ∀ b < 2, ∀ c < 2, ∀ d < 8,
    (a * 128 + b * 64 + c * 16 + d) &&& 0x28 = 0 := by decide

/-- Byte 6 of a packed frame has bits 4 to 2 zero. -/
theorem packOption_fieldless (c : CfgOperand) : packOption c &&& 0x1C = 0 := by
  apply BitVec.eq_of_toNat_eq
  rw [BitVec.toNat_and, packOption_toNat]
  exact option_fields_fieldless _ (by omega) _ (by omega) _ (by omega)

/-- Byte 8 of a packed frame has bits 5 and 3 zero. -/
theorem packTransMode_fieldless (c : CfgOperand) : packTransMode c &&& 0x28 = 0 := by
  apply BitVec.eq_of_toNat_eq
  rw [BitVec.toNat_and, packTransMode_toNat]
  exact transMode_fields_fieldless _ (by omega) _ (by omega) _ (by omega) _ (by omega)

/-- Settles O10: bytes 6 and 8 of the frame are the packed OPTION and TRANS_MODE (D4). -/
theorem encCfgLeavesFieldlessBitsZero : Obligations.EncCfgLeavesFieldlessBitsZero := fun arg s hidle =>
  ⟨_, _, _, exec_encCfg_idle hidle arg, rfl, packOption_fieldless s.ports.cfg, rfl, packTransMode_fieldless s.ports.cfg⟩

/-! ### Operands wider than their fields (R83) -/

/-- A whole byte takes the low eight bits of its operand. -/
theorem byteOf_congr {a b : Nat} (h : a % 256 = b % 256) : byteOf a = byteOf b :=
  BitVec.eq_of_toNat_eq (by rw [byteOf_toNat, byteOf_toNat, h])

section
variable {c d : CfgOperand}

/-- SPEED takes the low bits of its three operands. -/
theorem packSpeed_congr (hbaud : c.baud % 8 = d.baud % 8) (hparity : c.parity % 4 = d.parity % 4)
    (hrate : c.airRate % 8 = d.airRate % 8) : packSpeed c = packSpeed d :=
  BitVec.eq_of_toNat_eq (by rw [packSpeed_toNat, packSpeed_toNat, hbaud, hparity, hrate])

/-- OPTION takes the low bits of its three operands. -/
theorem packOption_congr (hsubpkt : c.subpkt % 4 = d.subpkt % 4) (hnoise : c.rssiNoise % 2 = d.rssiNoise % 2)
    (hpower : c.power % 4 = d.power % 4) : packOption c = packOption d :=
  BitVec.eq_of_toNat_eq (by rw [packOption_toNat, packOption_toNat, hsubpkt, hnoise, hpower])

/-- TRANS_MODE takes the low bits of its four operands. -/
theorem packTransMode_congr (hrssi : c.rssiEn % 2 = d.rssiEn % 2) (hfixed : c.fixed % 2 = d.fixed % 2)
    (hlbt : c.lbt % 2 = d.lbt % 2) (hwor : c.wor % 8 = d.wor % 8) : packTransMode c = packTransMode d :=
  BitVec.eq_of_toNat_eq (by rw [packTransMode_toNat, packTransMode_toNat, hrssi, hfixed, hlbt, hwor])

end

/-- Settles O11: the frames agree byte by byte, and ENC_CFG reads its operands for the frame only (D3). -/
theorem encCfgReadsOnlyTheLowBitsOfEachField : Obligations.EncCfgReadsOnlyTheLowBitsOfEachField := by
  intro arg s h c hidle hcmd haddr hlen haddh haddl hrate hparity hbaud hpower hnoise hsubpkt hchan hwor hlbt hfixed hrssi
    hcryptH hcryptL
  have hframe : packCfg h c = packCfg s.ports.hdr s.ports.cfg := by
    simp only [packCfg, byteOf_congr hcmd, byteOf_congr haddr, byteOf_congr hlen, byteOf_congr haddh, byteOf_congr haddl,
      packSpeed_congr hbaud hparity hrate, packOption_congr hsubpkt hnoise hpower, byteOf_congr hchan,
      packTransMode_congr hrssi hfixed hlbt hwor, byteOf_congr hcryptH, byteOf_congr hcryptL]
  refine ⟨_, exec_encCfg_idle hidle arg, ?_⟩
  rw [exec_encCfg_idle (s := { s with ports := { s.ports with hdr := h, cfg := c } }) hidle, hframe]

/-! ### Unpacking (R82) -/

/-- A field at the low end of a byte is the byte modulo 2 to its width. -/
theorem extractField_low (b : Byte) (w : Nat) : extractField b 0 w = BitVec.ofNat w (b.toNat % 2 ^ w) :=
  BitVec.eq_of_toNat_eq (by simp)

/-- A field inside a byte is the byte shifted down, modulo 2 to its width. -/
theorem extractField_mid (b : Byte) (lo w : Nat) : extractField b lo w = BitVec.ofNat w ((b.toNat >>> lo) % 2 ^ w) :=
  BitVec.eq_of_toNat_eq (by simp [Nat.shiftRight_eq_div_pow])

/-- A field at the high end of a byte is the byte shifted down: `ofNat` keeps its width. -/
theorem extractField_high (b : Byte) (lo w : Nat) : extractField b lo w = BitVec.ofNat w (b.toNat >>> lo) := rfl

/-- The fields of a configuration frame, by the arithmetic of R82. -/
theorem unpackCfg_eq (s : State) :
    unpackCfg s =
      { addh := bufRead s 3
        addl := bufRead s 4
        airRate := BitVec.ofNat 3 ((bufRead s 5).toNat % 8)
        parity := BitVec.ofNat 2 (((bufRead s 5).toNat >>> 3) % 4)
        baud := BitVec.ofNat 3 ((bufRead s 5).toNat >>> 5)
        power := BitVec.ofNat 2 ((bufRead s 6).toNat % 4)
        rssiNoise := BitVec.ofNat 1 (((bufRead s 6).toNat >>> 5) % 2)
        subpkt := BitVec.ofNat 2 ((bufRead s 6).toNat >>> 6)
        chan := bufRead s 7
        wor := BitVec.ofNat 3 ((bufRead s 8).toNat % 8)
        lbt := BitVec.ofNat 1 (((bufRead s 8).toNat >>> 4) % 2)
        fixed := BitVec.ofNat 1 (((bufRead s 8).toNat >>> 6) % 2)
        rssiEn := BitVec.ofNat 1 ((bufRead s 8).toNat >>> 7)
        cryptH := bufRead s 9
        cryptL := bufRead s 10 } := by
  rw [unpackCfg, extractField_low, extractField_mid _ 3, extractField_high _ 5 3, extractField_low, extractField_mid _ 5 1,
    extractField_high _ 6 2, extractField_low, extractField_mid _ 4, extractField_mid _ 6 1, extractField_high _ 7]
  rfl

/-- Settles O12: for the frame's own length the fields are those of R82, for any other there are none (D5, D7, log 13). -/
theorem decCfgUnpacksTheFrame : Obligations.DecCfgUnpacksTheFrame := by
  intro n s hidle
  rw [exec_decCfg_idle hidle, unpackCfg_eq]
  by_cases hn : n = 11
  · simp only [lengthStatus, Config.cfgFrameLen, hn, if_true]
    rfl
  · simp only [lengthStatus, Config.cfgFrameLen, hn, if_false]

/-! ## The targets of SET_MODE (R80, R81, R88) -/

/-- `modeOf` and `targetCode` are each other's inverse on the four modes and their codes (R81, R131). -/
theorem modeOf_eq_some_iff {c : Byte} {m : Mode} : modeOf c = some m ↔ targetCode m = some c := by
  constructor
  · intro h
    unfold modeOf at h
    split at h <;> rename_i hc <;> cases h <;> exact congrArg some (BitVec.eq_of_toNat_eq hc.symm)
  · intro h
    cases m <;> cases h <;> rfl

/-- SET_MODE is accepted on an idle sequencer (R131). -/
theorem exec_setMode_idle {s : State} (hidle : s.seq = .idle) (c : Byte) :
    exec (.setMode c) s = .next { s with sequencer := .settle1 c s.latches } := whenIdle_idle hidle _

/-- The step of ASSERT with a code that is no mode (R135). -/
theorem step_assert_illegal {s : State} {c : Byte} {l : Option Latches} (hq : s.sequencer = .assert c l)
    (hc : 4 ≤ c.toNat) : step s = .next (returnStatus .invalidParameter s) := by
  rw [step_assert hq, assertTarget, if_pos ((modeOf_eq_none_iff c).mpr hc)]

/-- The step of ASSERT with a mode's code and both lines wired (R136). -/
theorem step_assert_wired {s : State} {c : Byte} {l : Option Latches} {m : Mode} (hq : s.sequencer = .assert c l)
    (hm : modeOf c = some m) (h0 : s.params.hasM0 = true) (h1 : s.params.hasM1 = true) :
    step s = .next { drivePair (targetM0 c) (targetM1 c) s with sequencer := .settle2 c s.latches } := by
  simp [step_assert hq, assertTarget, hm, h0, h1]

/-- The step of ASSERT with a mode's code and neither line wired (R134). -/
theorem step_assert_absent {s : State} {c : Byte} {l : Option Latches} {m : Mode} (hq : s.sequencer = .assert c l)
    (hm : modeOf c = some m) (h0 : s.params.hasM0 = false) (h1 : s.params.hasM1 = false) :
    step s = .next { s with sequencer := .settle2 c s.latches } := by
  simp [step_assert hq, assertTarget, hm, h0, h1]

/-- Settles O26: the first settle hold, then the check of ASSERT, which comes before the wiring is looked at (D13). -/
theorem illegalTargetEndsWithInvalidParameter : Obligations.IllegalTargetEndsWithInvalidParameter := by
  intro c s hidle hc
  refine ⟨_, exec_setMode_idle hidle c, ?_⟩
  rw [run_next (step_settle1 rfl), run_next (step_assert_illegal rfl hc)]
  rfl

/-- Settles O28: ASSERT drives the two bits of the target, and the code of each mode has the bits of its pattern. -/
theorem linesShowThePatternOfTheMode : Obligations.LinesShowThePatternOfTheMode := by
  intro c m s hseq htgt hm h0 h1
  refine ⟨_, step_assert_wired (sequencer_of_assert hseq htgt) hm h0 h1, ?_⟩
  simp only [drivePair_registers]
  have hcode : targetCode m = some c := modeOf_eq_some_iff.mp hm
  cases m <;> cases hcode <;> decide

/-! ## The mode envelope (R92, R212, R213) -/

/-- An idle sequencer with no command stays (R200). -/
theorem step_idle_waits {s : State} (hidle : s.seq = .idle) (hcmd : s.cmd = none) : step s = .next s := by
  simp only [step, hidle, hcmd]

/-- A SET_MODE of `c` with no other command presented, under way or returned; returned with Success, it has recorded its
target (R140). -/
structure SetModeUnderway (c : Byte) (s : State) : Prop where
  cmd : s.cmd = none
  tgt : s.tgt = some c
  phase : s.seq.inSetMode = true ∨ s.seq = .idle ∧ (s.status = some .success → s.curMode = recordedMode c)

/-- The wait of a SET_MODE that went well records its target (R140). -/
theorem waitSucceeded_curMode {w : Waiter} {c : Byte} (horigin : w.origin = .setMode) (htgt : w.tgt = some c) (s : State) :
    (waitSucceeded w s).curMode = recordedMode c := by
  rw [Waiter.eq_setMode horigin htgt, waitSucceeded_eq]

/-- A step of a SET_MODE leads to another of its phases or returns, and only the end of its wait returns Success. -/
theorem step_inSetMode {c : Byte} {s t : State} (hphase : s.seq.inSetMode = true) (htgt : s.tgt = some c)
    (h : step s = .next t) :
    t.seq.inSetMode = true ∨ t.seq = .idle ∧ (t.status = some .success → t.curMode = recordedMode c) := by
  cases step_transition h
  case waits hidle _ _ | accepts hidle _ _ _ | rejects hidle _ _ _ => simp [hidle, Phase.inSetMode] at hphase
  case settled1 eq | drives eq | skips eq => simp [eq, Phase.inSetMode]
  case badTarget eq | pollExpired eq => simp [eq]
  case settled2 d l _ eq =>
    obtain ⟨-, hseq, -⟩ | ⟨-, hseq, -⟩ := enterWait_cases (.setMode d) (hold s.params.settleMs s) <;>
      exact .inl (by rw [eq, endSettle2, hseq]; rfl)
  case pollAgain eq => exact .inl (by simpa [eq] using hphase)
  case pollReady w l hq _ eq =>
    rw [State.seq_of hq] at hphase
    rw [State.tgt_of hq] at htgt
    exact .inr ⟨by simp [eq], fun _ => eq ▸ waitSucceeded_curMode ((Phase.inSetMode_waitAux _).mp hphase) htgt _⟩
  case fallback w l hq eq =>
    rw [State.seq_of hq] at hphase
    rw [State.tgt_of hq] at htgt
    exact .inr ⟨by simp [eq], fun _ => eq ▸ waitSucceeded_curMode ((Phase.inSetMode_waitFallback _).mp hphase) htgt _⟩

/-- Every step keeps a SET_MODE under way or returned. -/
theorem step_keeps_setModeUnderway {c : Byte} (s t : State) (hs : SetModeUnderway c s) (h : step s = .next t) :
    SetModeUnderway c t := by
  obtain hphase | ⟨hidle, -⟩ := hs.phase
  · have hbusy : s.seq ≠ .idle := fun hidle => by simp [hidle, Phase.inSetMode] at hphase
    obtain ⟨hcmd, -⟩ := (busySequencerTakesNoCommand s hbusy).2 t h
    have htgt : t.tgt = s.tgt := (step_tgt h).resolve_right fun ⟨hidle, _⟩ => hbusy hidle
    exact ⟨hcmd.trans hs.cmd, htgt.trans hs.tgt, step_inSetMode hphase hs.tgt h⟩
  · cases (step_idle_waits hidle hs.cmd).symm.trans h
    exact hs

/-- A SET_MODE that returns Success has recorded its target, after any number of polls (R140). -/
theorem completes_setMode_curMode {c : Byte} {s u : State} (h : completes (.setMode c) s u)
    (hstatus : u.status = some .success) : u.curMode = recordedMode c := by
  obtain ⟨hcmd, hidle, s1, k, hexec, hrun⟩ := h
  obtain ⟨hs, hexec⟩ := whenIdle_next hexec
  cases hexec
  have hstart : SetModeUnderway c { s with sequencer := .settle1 c s.latches } := ⟨hcmd, rfl, .inl rfl⟩
  have hu : SetModeUnderway c u := run_keeps step_keeps_setModeUnderway hstart hrun
  obtain hphase | ⟨-, hmode⟩ := hu.phase
  · simp [hidle, Phase.inSetMode] at hphase
  · exact hmode hstatus

/-- ASSERT of a legal target goes on to the second hold where both lines are wired or both absent (R134, R136). -/
theorem step_assert_legal {s : State} {c : Byte} {l : Option Latches} {m : Mode} (hq : s.sequencer = .assert c l)
    (hm : modeOf c = some m) (hlines : s.params.hasM0 = s.params.hasM1) :
    ∃ t, step s = .next t ∧ t.sequencer = .settle2 c s.latches ∧ t.params = s.params ∧ t.cmd = s.cmd ∧
      t.auxIn = s.auxIn := by
  cases h0 : s.params.hasM0 with
  | true => exact ⟨_, step_assert_wired hq hm h0 (hlines ▸ h0), rfl, by simp [drivePair_eq]⟩
  | false => exact ⟨_, step_assert_absent hq hm h0 (hlines ▸ h0), rfl, rfl, rfl, rfl⟩

/-- The busy line, if wired, is found high by the next sample (R35). -/
def auxReady (s : State) : Prop := s.params.hasAux = false ∨ ∃ rest, s.auxIn = true :: rest

/-- A wait that is entered with a ready line ends with Success in its first step (R146, R147). -/
theorem step_enterWait_ready {s : State} (hready : auxReady s) (w : Waiter) :
    ∃ u, step (enterWait w s) = .next u ∧ u.seq = .idle ∧ u.status = some .success ∧ u.params = s.params ∧
      u.cmd = s.cmd ∧ (s.params.hasAux = true → u.auxIn = s.auxIn.tail) := by
  cases haux : s.params.hasAux with
  | true =>
    obtain ⟨rest, hrest⟩ := hready.resolve_left (by simp [haux])
    rw [enterWait_aux haux, step_waitAux rfl, pollAux_high (by simp [auxLevel, hrest])]
    exact ⟨_, rfl, by simp [waitSucceeded_eq]⟩
  | false =>
    rw [enterWait_fallback haux, step_waitFallback rfl]
    exact ⟨_, rfl, by simp [endFallback, waitSucceeded_eq]⟩

/-- From the second hold on, with a ready line: the wait is entered and ends with Success (R138, R139). -/
theorem run_settle2_ready {s : State} {c : Byte} {l : Option Latches} (hq : s.sequencer = .settle2 c l)
    (hready : auxReady s) :
    ∃ u, run 2 s = .next u ∧ u.seq = .idle ∧ u.status = some .success ∧ u.params = s.params ∧ u.cmd = s.cmd ∧
      (s.params.hasAux = true → u.auxIn = s.auxIn.tail) := by
  obtain ⟨u, hwait, hu⟩ := step_enterWait_ready (s := hold s.params.settleMs s) hready (.setMode c)
  exact ⟨u, (run_next (step_settle2 hq) 1).trans (run_next hwait 0), hu⟩

/-- SET_MODE of a legal target completes with Success when the line is ready; it samples the line once if it is wired. -/
theorem setMode_completes {s : State} {c : Byte} {m : Mode} (hidle : s.seq = .idle) (hcmd : s.cmd = none)
    (hm : modeOf c = some m) (hlines : s.params.hasM0 = s.params.hasM1) (hready : auxReady s) :
    ∃ u, completes (.setMode c) s u ∧ u.status = some .success ∧ u.curMode = m ∧ u.params = s.params ∧ u.cmd = none ∧
      (s.params.hasAux = true → u.auxIn = s.auxIn.tail) := by
  obtain ⟨s3, hassert, hq, hparams, hcmd3, haux⟩ :=
    step_assert_legal (s := endSettle1 c { s with sequencer := .settle1 c s.latches }) rfl hm hlines
  obtain ⟨u, hrun, hseq, hstatus, hparamsu, hcmdu, hauxu⟩ := run_settle2_ready hq (by rwa [auxReady, hparams, haux])
  have hu : completes (.setMode c) s u :=
    ⟨hcmd, hseq, _, 4, exec_setMode_idle hidle c, by rw [run_next (step_settle1 rfl), run_next hassert, hrun]⟩
  refine ⟨u, hu, hstatus, ?_, hparamsu.trans hparams, hcmdu.trans (hcmd3.trans hcmd), ?_⟩
  · exact (completes_setMode_curMode hu hstatus).trans (recordedMode_of_modeOf hm)
  · rw [hparams, haux] at hauxu
    exact hauxu

/-- The saved mode that CFG_LEAVE of `c` restores is the mode of `c` (R92). -/
theorem modeOf_of_cfgLeave {m : Mode} {c : Byte} (h : Pseudo.expand (.cfgLeave m) = some [.setMode c]) :
    modeOf c = some m := by
  cases m <;> cases h <;> rfl

/-- A mode that is known has a CFG_LEAVE (R213). -/
theorem cfgLeave_formable {m : Mode} (h : m ≠ .unknown) : ∃ c, Pseudo.expand (.cfgLeave m) = some [.setMode c] := by
  cases m with
  | unknown => exact absurd rfl h
  | normal | worTx | powerSaving | configuration => exact ⟨_, rfl⟩

/-- Settles O43: a SET_MODE that returns Success has recorded its target, 3 is the code of Configuration, and CFG_LEAVE is
formed with the code of the saved mode (D12). -/
theorem configEnvelopeRestoresTheMode : Obligations.ConfigEnvelopeRestoresTheMode := by
  have hconfiguration : modeOf 3 = some .configuration := rfl
  refine ⟨fun s u v c hleave hu hus hv hvs => ?_, fun s hidle hcmd hknown hlines hready => ?_, rfl⟩
  · exact ⟨(completes_setMode_curMode hu hus).trans (recordedMode_of_modeOf hconfiguration),
      (completes_setMode_curMode hv hvs).trans (recordedMode_of_modeOf (modeOf_of_cfgLeave hleave))⟩
  · obtain ⟨c, hleave⟩ := cfgLeave_formable hknown
    obtain ⟨u, hu, hus, humode, huparams, hucmd, huaux⟩ :=
      setMode_completes hidle hcmd hconfiguration hlines (hready.imp_right fun ⟨rest, hrest⟩ => ⟨true :: rest, hrest⟩)
    have ⟨_, huidle, _⟩ := hu
    have hready' : auxReady u := by
      rw [auxReady, huparams]
      obtain habsent | ⟨rest, hrest⟩ := hready
      · exact .inl habsent
      · cases haux : s.params.hasAux with
        | false => exact .inl rfl
        | true => exact .inr ⟨rest, by rw [huaux haux, hrest]; rfl⟩
    obtain ⟨v, hv, hvs, hvmode, -⟩ :=
      setMode_completes huidle hucmd (modeOf_of_cfgLeave hleave) (by rwa [huparams]) hready'
    exact ⟨u, v, c, rfl, hu, hus, hleave, hv, hvs, humode, hvmode⟩

end Machine
end Sys2Proof
end

/-!
The configuration codec family (spec/40_config_codec.md): the packing formulae (R101), and the two round trips of ENC_CFG and
DEC_CFG (R108, R109).
-/

section
namespace Sys2Proof.Machine

/-! ## The packing formulae (R101) -/

/-- Keeping the low bits of an operand is masking it with as many ones (R83). -/
theorem insertField_eq_mask (v w lo : Nat) : insertField v w lo = (v &&& (2 ^ w - 1)) <<< lo := by
  rw [insertField, Nat.and_two_pow_sub_one_eq_mod]

/-- A byte keeps no more than its operand modulo 256. -/
theorem byteOf_eq_ofNat_mod (v : Nat) : byteOf v = BitVec.ofNat 8 (v % 256) :=
  BitVec.eq_of_toNat_eq (by simp)

section
variable (c : CfgOperand)

/-- Byte 5 by the formula of R101. -/
theorem packSpeed_eq_masks :
    packSpeed c = BitVec.ofNat 8 (
      (((c.baud &&& 0b111) <<< 5) ||| ((c.parity &&& 0b11) <<< 3) ||| (c.airRate &&& 0b111)) % 256) := by
  simp only [packSpeed, insertField_eq_mask, byteOf_eq_ofNat_mod]
  rfl

/-- Byte 6 by the formula of R101. -/
theorem packOption_eq_masks :
    packOption c = BitVec.ofNat 8 (
      (((c.subpkt &&& 0b11) <<< 6) ||| ((c.rssiNoise &&& 0b1) <<< 5) ||| (c.power &&& 0b11)) % 256) := by
  simp only [packOption, insertField_eq_mask, byteOf_eq_ofNat_mod]
  rfl

/-- Byte 8 by the formula of R101. -/
theorem packTransMode_eq_masks :
    packTransMode c = BitVec.ofNat 8 (
      (((c.rssiEn &&& 0b1) <<< 7) ||| ((c.fixed &&& 0b1) <<< 6) ||| ((c.lbt &&& 0b1) <<< 4)
        ||| (c.wor &&& 0b111)) % 256) := by
  simp only [packTransMode, insertField_eq_mask, byteOf_eq_ofNat_mod]
  rfl

end

/-- Settles O9: the fields masked and shifted are those of R101, and every byte is taken modulo 256 (D3, D6, log 13). -/
theorem encCfgPacksTheFrame : Obligations.EncCfgPacksTheFrame := by
  intro arg s hidle
  rw [exec_encCfg_idle hidle]
  simp only [packCfg, packSpeed_eq_masks, packOption_eq_masks, packTransMode_eq_masks, byteOf_eq_ofNat_mod,
    Vector.map_mk, List.map_toArray, List.map_cons, List.map_nil]
  rfl

/-! ## From fields to a frame and back (R108) -/

section
variable (c : CfgOperand)

/-- The three fields of a packed SPEED. -/
theorem extractField_packSpeed :
    (extractField (packSpeed c) 0 3).toNat = c.airRate % 8 ∧
    (extractField (packSpeed c) 3 2).toNat = c.parity % 4 ∧
    (extractField (packSpeed c) 5 3).toNat = c.baud % 8 := by
  simp only [extractField_toNat, packSpeed_toNat]
  omega

/-- The three fields of a packed OPTION. -/
theorem extractField_packOption :
    (extractField (packOption c) 0 2).toNat = c.power % 4 ∧
    (extractField (packOption c) 5 1).toNat = c.rssiNoise % 2 ∧
    (extractField (packOption c) 6 2).toNat = c.subpkt % 4 := by
  simp only [extractField_toNat, packOption_toNat]
  omega

/-- The four fields of a packed TRANS_MODE. -/
theorem extractField_packTransMode :
    (extractField (packTransMode c) 0 3).toNat = c.wor % 8 ∧
    (extractField (packTransMode c) 4 1).toNat = c.lbt % 2 ∧
    (extractField (packTransMode c) 6 1).toNat = c.fixed % 2 ∧
    (extractField (packTransMode c) 7 1).toNat = c.rssiEn % 2 := by
  simp only [extractField_toNat, packTransMode_toNat]
  omega

end

section
variable {hdr : HdrOperand} {cfg : CfgOperand} {u : State}
  (hframe : ∀ i : Fin 11, (packCfg hdr cfg).get i = some (Memory.read u.ports.bufIn i.val))
include hframe

/-- What DEC_CFG reads as HDR where BUF_IN holds a packed frame. -/
theorem unpackHdr_of_packed : unpackHdr u = ⟨byteOf hdr.cmd, byteOf hdr.addr, byteOf hdr.len⟩ := by
  have h0 : byteOf hdr.cmd = bufRead u 0 := Option.some.inj (hframe 0)
  have h1 : byteOf hdr.addr = bufRead u 1 := Option.some.inj (hframe 1)
  have h2 : byteOf hdr.len = bufRead u 2 := Option.some.inj (hframe 2)
  rw [unpackHdr, h0, h1, h2]

/-- What DEC_CFG reads as CFG where BUF_IN holds a packed frame. -/
theorem unpackCfg_of_packed :
    unpackCfg u =
      { addh := byteOf cfg.addh
        addl := byteOf cfg.addl
        airRate := extractField (packSpeed cfg) 0 3
        parity := extractField (packSpeed cfg) 3 2
        baud := extractField (packSpeed cfg) 5 3
        power := extractField (packOption cfg) 0 2
        rssiNoise := extractField (packOption cfg) 5 1
        subpkt := extractField (packOption cfg) 6 2
        chan := byteOf cfg.chan
        wor := extractField (packTransMode cfg) 0 3
        lbt := extractField (packTransMode cfg) 4 1
        fixed := extractField (packTransMode cfg) 6 1
        rssiEn := extractField (packTransMode cfg) 7 1
        cryptH := byteOf cfg.cryptH
        cryptL := byteOf cfg.cryptL } := by
  have h3 : byteOf cfg.addh = bufRead u 3 := Option.some.inj (hframe 3)
  have h4 : byteOf cfg.addl = bufRead u 4 := Option.some.inj (hframe 4)
  have h5 : packSpeed cfg = bufRead u 5 := Option.some.inj (hframe 5)
  have h6 : packOption cfg = bufRead u 6 := Option.some.inj (hframe 6)
  have h7 : byteOf cfg.chan = bufRead u 7 := Option.some.inj (hframe 7)
  have h8 : packTransMode cfg = bufRead u 8 := Option.some.inj (hframe 8)
  have h9 : byteOf cfg.cryptH = bufRead u 9 := Option.some.inj (hframe 9)
  have h10 : byteOf cfg.cryptL = bufRead u 10 := Option.some.inj (hframe 10)
  rw [unpackCfg, h3, h4, h5, h6, h7, h8, h9, h10]

end

/-- Settles O15: each field is cut from the byte it was packed into, and comes back reduced to its width (D3, D5). -/
theorem configFieldsSurviveEncodeThenDecode : Obligations.ConfigFieldsSurviveEncodeThenDecode := by
  intro arg s hidle
  refine ⟨_, exec_encCfg_idle hidle arg, fun u huidle hframe =>
    ⟨_, unpackHdr u, unpackCfg u, exec_decCfg_idle huidle 11, rfl, rfl, rfl, ?_⟩⟩
  rw [unpackHdr_of_packed hframe, unpackCfg_of_packed hframe]
  obtain ⟨hrate, hparity, hbaud⟩ := extractField_packSpeed s.ports.cfg
  obtain ⟨hpower, hnoise, hsubpkt⟩ := extractField_packOption s.ports.cfg
  obtain ⟨hwor, hlbt, hfixed, hrssi⟩ := extractField_packTransMode s.ports.cfg
  exact ⟨byteOf_toNat _, byteOf_toNat _, byteOf_toNat _, byteOf_toNat _, byteOf_toNat _, hrate, hparity, hbaud,
    hpower, hnoise, hsubpkt, byteOf_toNat _, hwor, hlbt, hfixed, hrssi, byteOf_toNat _, byteOf_toNat _⟩

/-! ## From a frame to fields and back (R109) -/

/-- A byte presented as an operand is packed as itself. -/
theorem byteOf_toNat_self (b : Byte) : byteOf b.toNat = b := by simp [byteOf]

/-- The mask of byte 6 keeps the three fields of OPTION and clears what stands at bits 4 to 2. -/
theorem option_mask_fields : ∀ a < 4, ∀ b < 2, ∀ x < 8, ∀ c < 4,
    (a * 64 + b * 32 + x * 4 + c) &&& 0xE3 = a * 64 + b * 32 + c := by decide

/-- The mask of byte 8 keeps the four fields of TRANS_MODE and clears what stands at bits 5 and 3. -/
theorem transMode_mask_fields : ∀ a < 2, ∀ b < 2, ∀ x < 2, ∀ c < 2, ∀ y < 2, ∀ d < 8,
    (a * 128 + b * 64 + x * 32 + c * 16 + y * 8 + d) &&& 0xD7 = a * 128 + b * 64 + c * 16 + d := by decide

section
variable (b : Byte)

/-- A masked byte 6 as the sum of its fields. -/
theorem toNat_and_option_mask :
    (b &&& 0xE3).toNat = b.toNat / 64 % 4 * 64 + b.toNat / 32 % 2 * 32 + b.toNat % 4 := by
  have hsplit : b.toNat / 64 % 4 * 64 + b.toNat / 32 % 2 * 32 + b.toNat / 4 % 8 * 4 + b.toNat % 4 = b.toNat := by omega
  have hmask := option_mask_fields (b.toNat / 64 % 4) (by omega) (b.toNat / 32 % 2) (by omega) (b.toNat / 4 % 8) (by omega)
    (b.toNat % 4) (by omega)
  rw [hsplit] at hmask
  rw [BitVec.toNat_and]
  exact hmask

/-- A masked byte 8 as the sum of its fields. -/
theorem toNat_and_transMode_mask :
    (b &&& 0xD7).toNat =
      b.toNat / 128 % 2 * 128 + b.toNat / 64 % 2 * 64 + b.toNat / 16 % 2 * 16 + b.toNat % 8 := by
  have hsplit : b.toNat / 128 % 2 * 128 + b.toNat / 64 % 2 * 64 + b.toNat / 32 % 2 * 32 + b.toNat / 16 % 2 * 16
      + b.toNat / 8 % 2 * 8 + b.toNat % 8 = b.toNat := by omega
  have hmask := transMode_mask_fields (b.toNat / 128 % 2) (by omega) (b.toNat / 64 % 2) (by omega) (b.toNat / 32 % 2)
    (by omega) (b.toNat / 16 % 2) (by omega) (b.toNat / 8 % 2) (by omega) (b.toNat % 8) (by omega)
  rw [hsplit] at hmask
  rw [BitVec.toNat_and]
  exact hmask

end

section
variable (s : State)

/-- SPEED has no bit without a field: its three fields packed again are the byte. -/
theorem packSpeed_unpackCfg : packSpeed (unpackCfg s).toOperand = bufRead s 5 := by
  apply BitVec.eq_of_toNat_eq
  simp only [packSpeed_toNat, Cfg.toOperand, unpackCfg, extractField_toNat]
  omega

/-- OPTION comes back with bits 4 to 2 cleared (R74). -/
theorem packOption_unpackCfg : packOption (unpackCfg s).toOperand = bufRead s 6 &&& 0xE3 := by
  apply BitVec.eq_of_toNat_eq
  simp only [packOption_toNat, toNat_and_option_mask, Cfg.toOperand, unpackCfg, extractField_toNat]
  omega

/-- TRANS_MODE comes back with bits 5 and 3 cleared (R74). -/
theorem packTransMode_unpackCfg : packTransMode (unpackCfg s).toOperand = bufRead s 8 &&& 0xD7 := by
  apply BitVec.eq_of_toNat_eq
  simp only [packTransMode_toNat, toNat_and_transMode_mask, Cfg.toOperand, unpackCfg, extractField_toNat]
  omega

/-- The frame made of what DEC_CFG read is BUF_IN without the fieldless bits (R109). -/
theorem packCfg_unpack :
    packCfg (unpackHdr s).toOperand (unpackCfg s).toOperand =
      #v[some (bufRead s 0), some (bufRead s 1), some (bufRead s 2), some (bufRead s 3), some (bufRead s 4),
        some (bufRead s 5), some (bufRead s 6 &&& 0xE3), some (bufRead s 7), some (bufRead s 8 &&& 0xD7),
        some (bufRead s 9), some (bufRead s 10)] := by
  simp only [packCfg, packSpeed_unpackCfg, packOption_unpackCfg, packTransMode_unpackCfg]
  simp only [Hdr.toOperand, Cfg.toOperand, unpackHdr, unpackCfg, byteOf_toNat_self]

/-- The same, byte by byte. -/
theorem packCfg_unpack_get (i : Fin 11) :
    (packCfg (unpackHdr s).toOperand (unpackCfg s).toOperand).get i = some (
      if i.val = 6 then bufRead s 6 &&& 0xE3
      else if i.val = 8 then bufRead s 8 &&& 0xD7
      else bufRead s i.val) := by
  rw [packCfg_unpack]
  fin_cases i <;> rfl

end

/-- A byte that is zero under one mask is kept by any mask that covers the other bits. -/
theorem and_eq_self_of_and_eq_zero {b keep clear : Byte} (hcover : keep ||| clear = BitVec.allOnes 8)
    (hzero : b &&& clear = 0) : b &&& keep = b := calc
  b &&& keep = (b &&& keep) ||| (b &&& clear) := by rw [hzero]; exact BitVec.or_zero.symm
  _ = b &&& (keep ||| clear) := BitVec.and_or_distrib_left.symm
  _ = b := by rw [hcover, BitVec.and_allOnes]

/-- Settles O16: the frame made again is the frame read but for the fieldless bits; a valid frame has them clear (D4, D5). -/
theorem configBytesSurviveDecodeThenEncode : Obligations.ConfigBytesSurviveDecodeThenEncode := by
  intro s hidle
  refine ⟨_, unpackHdr s, unpackCfg s, exec_decCfg_idle hidle 11, rfl, rfl,
    fun arg u huidle hhdr hcfg => ⟨_, exec_encCfg_idle huidle arg, ?_⟩⟩
  rw [hhdr, hcfg]
  refine ⟨packCfg_unpack_get s, fun h6 h8 h9 h10 => ?_⟩
  have hkeep6 : bufRead s 6 &&& 0xE3 = bufRead s 6 := and_eq_self_of_and_eq_zero (by decide) h6
  have hkeep8 : bufRead s 8 &&& 0xD7 = bufRead s 8 := and_eq_self_of_and_eq_zero (by decide) h8
  refine ⟨fun i => ?_, (packCfg_unpack_get s 9).trans (congrArg some h9),
    (packCfg_unpack_get s 10).trans (congrArg some h10)⟩
  change (packCfg _ _).get i = _
  rw [packCfg_unpack_get, hkeep6, hkeep8]
  split_ifs with hi hi'
  · rw [hi]; rfl
  · rw [hi']; rfl
  · rfl

end Sys2Proof.Machine
end

/-!
The module-information codec family (spec/41_info_codec.md): the six bytes of ENC_INFO (R120, R121), the plain copy of DEC_INFO
(R123, R124), and their two round trips (R125).
-/

section
namespace Sys2Proof.Machine

/-! ## The two operations on an idle sequencer -/

/-- ENC_INFO on an idle sequencer (R120). -/
theorem exec_encInfo_idle {s : State} (hidle : s.seq = .idle) (arg : Byte) :
    exec (.encInfo arg) s = .next
      { s with
        status := some .success
        results := { s.results with bufOut := packInfo s.ports.hdr s.ports.info, bufOutLen := some Config.infoFrameLen } } := by
  rw [exec, execEncInfo, whenIdle_idle hidle, returnStatus_idle (by exact hidle)]

/-- DEC_INFO on an idle sequencer (R123, R124). -/
theorem exec_decInfo_idle {s : State} (hidle : s.seq = .idle) (n : Nat) :
    exec (.decInfo n) s = .next
      { s with
        status := some (lengthStatus n Config.infoFrameLen)
        results := { s.results with
          hdr := if n = Config.infoFrameLen then some (unpackHdr s) else none
          info := if n = Config.infoFrameLen then some (unpackInfo s) else none } } := by
  rw [exec, execDecInfo, whenIdle_idle hidle, returnStatus_idle (by exact hidle)]

/-- Settles O13: the six bytes are the operands modulo 256, and the frame length is 6 (D8, log 13). -/
theorem encInfoCopiesTheBytes : Obligations.EncInfoCopiesTheBytes := by
  intro arg s hidle
  rw [exec_encInfo_idle hidle]
  simp only [packInfo, byteOf_eq_ofNat_mod]
  rfl

/-- Settles O14: for the frame's own length the fields are the bytes read, for any other there are none (D8, log 13). -/
theorem decInfoCopiesTheBytes : Obligations.DecInfoCopiesTheBytes := by
  intro n s hidle
  rw [exec_decInfo_idle hidle]
  by_cases hn : n = 6
  · simp only [lengthStatus, Config.infoFrameLen, hn, if_true]
    rfl
  · simp only [lengthStatus, Config.infoFrameLen, hn, if_false]

/-! ## From fields to a frame and back (R125) -/

/-- A whole-byte operand below 256 is packed without loss. -/
theorem byteOf_toNat_of_lt {v : Nat} (h : v < 256) : (byteOf v).toNat = v := by rw [byteOf_toNat, Nat.mod_eq_of_lt h]

section
variable {hdr : HdrOperand} {info : InfoOperand} {u : State}
  (hframe : ∀ i : Fin 11, i.val < 6 → (packInfo hdr info).get i = some (Memory.read u.ports.bufIn i.val))
include hframe

/-- The HDR operand comes back from the frame of ENC_INFO on BUF_IN. -/
theorem unpackHdr_toOperand_of_packInfo (hcmd : hdr.cmd < 256) (haddr : hdr.addr < 256) (hlen : hdr.len < 256) :
    (unpackHdr u).toOperand = hdr := by
  have h0 : byteOf hdr.cmd = bufRead u 0 := Option.some.inj (hframe 0 (by decide))
  have h1 : byteOf hdr.addr = bufRead u 1 := Option.some.inj (hframe 1 (by decide))
  have h2 : byteOf hdr.len = bufRead u 2 := Option.some.inj (hframe 2 (by decide))
  rw [unpackHdr, ← h0, ← h1, ← h2, Hdr.toOperand, byteOf_toNat_of_lt hcmd, byteOf_toNat_of_lt haddr, byteOf_toNat_of_lt hlen]

/-- The INFO operand comes back from the frame of ENC_INFO on BUF_IN. -/
theorem unpackInfo_toOperand_of_packInfo (hmodel : info.model < 256) (hversion : info.version < 256)
    (hfeatures : info.features < 256) : (unpackInfo u).toOperand = info := by
  have h3 : byteOf info.model = bufRead u 3 := Option.some.inj (hframe 3 (by decide))
  have h4 : byteOf info.version = bufRead u 4 := Option.some.inj (hframe 4 (by decide))
  have h5 : byteOf info.features = bufRead u 5 := Option.some.inj (hframe 5 (by decide))
  rw [unpackInfo, ← h3, ← h4, ← h5, Info.toOperand, byteOf_toNat_of_lt hmodel, byteOf_toNat_of_lt hversion,
    byteOf_toNat_of_lt hfeatures]

end

/-! ## From a frame to fields and back (R125) -/

/-- The frame made of what DEC_INFO read is the first six bytes of BUF_IN. -/
theorem packInfo_unpack (s : State) :
    packInfo (unpackHdr s).toOperand (unpackInfo s).toOperand =
      #v[some (bufRead s 0), some (bufRead s 1), some (bufRead s 2), some (bufRead s 3), some (bufRead s 4),
        some (bufRead s 5), none, none, none, none, none] := by
  simp only [packInfo, Hdr.toOperand, Info.toOperand, unpackHdr, unpackInfo, byteOf_toNat_self]

/-- The same, byte by byte. -/
theorem packInfo_unpack_get (s : State) (k : Fin 11) (hk : k.val < 6) :
    (packInfo (unpackHdr s).toOperand (unpackInfo s).toOperand).get k = some (bufRead s k.val) := by
  rw [packInfo_unpack]
  match k, hk with
  | 0, _ | 1, _ | 2, _ | 3, _ | 4, _ | 5, _ => rfl

/-- Settles O17: each field below 256 is the byte it was packed into, and each byte read is packed again as itself. -/
theorem moduleInfoSurvivesBothRoundTrips : Obligations.ModuleInfoSurvivesBothRoundTrips := by
  constructor
  · intro arg s hidle hcmd haddr hlen hmodel hversion hfeatures
    exact ⟨_, exec_encInfo_idle hidle arg, fun u huidle hframe =>
      ⟨_, unpackHdr u, unpackInfo u, exec_decInfo_idle huidle 6, rfl, rfl,
        unpackHdr_toOperand_of_packInfo hframe hcmd haddr hlen,
        unpackInfo_toOperand_of_packInfo hframe hmodel hversion hfeatures⟩⟩
  · intro s hidle
    refine ⟨_, unpackHdr s, unpackInfo s, exec_decInfo_idle hidle 6, rfl, rfl, fun arg u huidle hhdr hinfo =>
      ⟨_, exec_encInfo_idle huidle arg, ?_⟩⟩
    rw [hhdr, hinfo]
    exact packInfo_unpack_get s

end Sys2Proof.Machine
end

/-!
The mode control family (spec/42_mode_control.md): the step of each phase (R132 to R139), the expiry of the bounded wait (R144,
R145), its polls (R146, R149), SET_MODE as a whole (R131, R140 to R142), and the transition table (R150, R151).
-/

section
namespace Sys2Proof.Machine

/-! ## What each phase's step answers -/

/-- The four target codes are codes of modes (R81). -/
theorem exists_modeOf_of_lt {c : Byte} (hc : c.toNat < 4) : ∃ m, modeOf c = some m :=
  Option.ne_none_iff_exists'.mp fun hnone => absurd ((modeOf_eq_none_iff c).mp hnone) (by omega)

/-- Settles O24: acceptance asks only that SEQ is IDLE (D25). -/
theorem setModeIsAcceptedIntoSettle1 : Obligations.SetModeIsAcceptedIntoSettle1 :=
  fun c _ hidle => exec_setMode_idle hidle c

/-- The step after the acceptance of a SET_MODE is the first settle hold (R132). -/
theorem step_accepted (c : Byte) (s : State) :
    step { s with sequencer := .settle1 c s.latches } =
      .next { s with sequencer := .assert c s.latches, events := s.events ++ [.hold s.params.settleMs] } :=
  step_settle1 rfl

/-- Settles O25: SETTLE1 asks for nothing but the time of the hold. -/
theorem setModeSettlesBeforeTheTargetIsChecked : Obligations.SetModeSettlesBeforeTheTargetIsChecked :=
  fun c _ hidle => ⟨_, exec_setMode_idle hidle c, step_accepted c _⟩

/-- The step of ASSERT with a mode's code and both lines wired, written out (R136). -/
theorem step_assert_drives {s : State} {c : Byte} {l : Option Latches} {m : Mode} (hq : s.sequencer = .assert c l)
    (hm : modeOf c = some m) (h0 : s.params.hasM0 = true) (h1 : s.params.hasM1 = true) :
    step s = .next { s with
      sequencer := .settle2 c s.latches
      m0 := some (targetM0 c)
      m1 := some (targetM1 c)
      orderIn := s.orderIn.tail
      draws := s.draws + 1
      events := s.events ++
        (if m0DrivenFirst s then [.drive .m0 (targetM0 c), .drive .m1 (targetM1 c)]
          else [.drive .m1 (targetM1 c), .drive .m0 (targetM0 c)]) } := by
  rw [step_assert_wired hq hm h0 h1, drivePair_eq]

/-- Settles O27: the order is the drawn one, and the script decides the draw (D16, log 5). -/
theorem assertDrivesBothLinesInEitherOrder : Obligations.AssertDrivesBothLinesInEitherOrder := by
  intro c s hseq htgt hc h0 h1
  obtain ⟨m, hm⟩ := exists_modeOf_of_lt hc
  exact ⟨m0DrivenFirst s, step_assert_drives (sequencer_of_assert hseq htgt) hm h0 h1,
    fun b rest horder => by simp [m0DrivenFirst, horder]⟩

/-- Settles O29: a target code is the code of a mode, and neither wiring asks for a drive (C3). -/
theorem absentLinesAreSkipped : Obligations.AbsentLinesAreSkipped := by
  intro c s hseq htgt hc h0 h1
  obtain ⟨m, hm⟩ := exists_modeOf_of_lt hc
  exact step_assert_absent (sequencer_of_assert hseq htgt) hm h0 h1

/-- Settles O30: with a legal target ASSERT answers only where the two wirings agree. -/
theorem oneWiredLineIsRefused : Obligations.OneWiredLineIsRefused := by
  intro c s hseq htgt hc hwiring
  obtain ⟨m, hm⟩ := exists_modeOf_of_lt hc
  rw [step_assert (sequencer_of_assert hseq htgt), assertTarget, if_neg (by simp [hm])]
  cases h0 : s.params.hasM0 <;> cases h1 : s.params.hasM1
  case false.false | true.true => simp [h0, h1] at hwiring
  case false.true | true.false => rfl

/-! ## Entry to the wait (R138, R139, R144) -/

/-- The next reading of a scripted clock (R36, log 4). -/
theorem clockReading_of_elapsedIn {s : State} {e : Nat} {more : List Nat} (h : s.elapsedIn = e :: more) :
    clockReading s = (s.clock + e) % s.params.clkMod := by
  simp [clockReading, h]

/-- WAIT_READY is accepted on an idle sequencer (R148). -/
theorem exec_waitReady_idle {s : State} (hidle : s.seq = .idle) (arg : Byte) :
    exec (.waitReady arg) s = .next (enterWait (.waitReady s.tgt) s) := whenIdle_idle hidle _

/-- Entry to the wait with a busy line, written out (R144). -/
theorem enterWait_aux_eq {s : State} (haux : s.params.hasAux = true) (w : Waiter) :
    enterWait w s =
      { s with
        sequencer := .waitAux w (latchWait s.params.timeoutMs s.params.clkMod (clockReading s))
        clock := clockReading s
        elapsedIn := s.elapsedIn.tail
        draws := s.draws + 1
        events := s.events ++ [.clock (clockReading s)] } :=
  enterWait_aux haux w

/-- A second settle hold with its target. -/
theorem sequencer_of_settle2_tgt {s : State} {c : Byte} (hseq : s.seq = .settle2) (htgt : s.tgt = some c) :
    s.sequencer = .settle2 c s.latches := by
  obtain ⟨d, hq⟩ := sequencer_of_settle2 hseq
  obtain rfl : d = c := Option.some.inj ((State.tgt_of hq).symm.trans htgt)
  exact hq

/-- The step of SETTLE2 with a busy line: the hold, then the reading of T0 (R138, R144). -/
theorem step_settle2_aux {s : State} {c : Byte} {l : Option Latches} (hq : s.sequencer = .settle2 c l)
    (haux : s.params.hasAux = true) :
    step s = .next { s with
      sequencer := .waitAux (.setMode c) (latchWait s.params.timeoutMs s.params.clkMod (clockReading s))
      clock := clockReading s
      elapsedIn := s.elapsedIn.tail
      draws := s.draws + 1
      events := s.events ++ [.hold s.params.settleMs, .clock (clockReading s)] } := by
  rw [step_settle2 hq, endSettle2, enterWait_aux_eq (s := hold s.params.settleMs s) haux, hold_events, List.append_assoc]
  rfl

/-- The step of SETTLE2 without a busy line: the hold alone (R138, R139). -/
theorem step_settle2_fallback {s : State} {c : Byte} {l : Option Latches} (hq : s.sequencer = .settle2 c l)
    (haux : s.params.hasAux = false) :
    step s = .next { s with
      sequencer := .waitFallback (.setMode c) s.latches, events := s.events ++ [.hold s.params.settleMs] } := by
  rw [step_settle2 hq, endSettle2, enterWait_fallback (s := hold s.params.settleMs s) haux]
  rfl

/-- Settles O31: T0 is the reading of this step, which the script decides (D19, log 4). -/
theorem secondSettleLatchesTheWait : Obligations.SecondSettleLatchesTheWait :=
  fun _ s hseq htgt haux =>
    ⟨clockReading s, step_settle2_aux (sequencer_of_settle2_tgt hseq htgt) haux,
      fun _ _ helapsed => clockReading_of_elapsedIn helapsed⟩

/-- Settles O32: the two entries to the wait, with no hold before them (D19). -/
theorem waitReadyEntersTheWait : Obligations.WaitReadyEntersTheWait := by
  intro arg s hidle
  rw [exec_waitReady_idle hidle]
  constructor
  · intro haux
    refine ⟨clockReading s, ?_, fun e more helapsed => clockReading_of_elapsedIn helapsed⟩
    rw [enterWait_aux_eq haux]
    rfl
  · intro haux
    rw [enterWait_fallback haux]

/-! ## Expiry (R144, R145) -/

/-- Without overflow the wait has expired when the clock is at the deadline or found wrapped. -/
theorem expired_latchWait_of_lt {timeoutMs clkMod t0 : Nat} (h : t0 + timeoutMs < clkMod) (c : Nat) :
    expired (latchWait timeoutMs clkMod t0) c = true ↔ t0 + timeoutMs ≤ c ∨ c < t0 := by
  simp [latchWait, expired, Nat.not_le.mpr h]

/-- With overflow it has expired when the clock is found wrapped. -/
theorem expired_latchWait_of_le {timeoutMs clkMod t0 : Nat} (h : clkMod ≤ t0 + timeoutMs) (c : Nat) :
    expired (latchWait timeoutMs clkMod t0) c = true ↔ c < t0 := by
  simp [latchWait, expired, h]

/-- Settles O33: the overflow rule decides which predicate stands (D19). -/
theorem expiryFollowsTheTwoPredicates : Obligations.ExpiryFollowsTheTwoPredicates :=
  fun _ _ _ c => ⟨fun h => expired_latchWait_of_lt h c, fun h => ⟨expired_latchWait_of_le h c, by omega⟩⟩

/-- Within one turn the clock reads T0 plus the time passed, less CLK_MOD once it has wrapped. -/
theorem reading_within_turn {clkMod t0 elapsed : Nat} (ht0 : t0 < clkMod) (helapsed : elapsed < clkMod) :
    (t0 + elapsed) % clkMod = if t0 + elapsed < clkMod then t0 + elapsed else t0 + elapsed - clkMod := by
  split
  · exact Nat.mod_eq_of_lt ‹_›
  · rw [Nat.mod_eq_sub_mod (by omega), Nat.mod_eq_of_lt (by omega)]

/-- Settles O34: with the reading written without modulus, the two predicates are linear in the time passed. -/
theorem expiryMeansTheTimeHasPassed : Obligations.ExpiryMeansTheTimeHasPassed := by
  intro timeoutMs clkMod t0 elapsed ht0 htimeout helapsed
  rw [reading_within_turn ht0 helapsed]
  obtain hfits | hoverflow := Nat.lt_or_ge (t0 + timeoutMs) clkMod
  · rw [expired_latchWait_of_lt hfits]
    split <;> omega
  · rw [expired_latchWait_of_le hoverflow]
    split <;> omega

/-- Once TIMEOUT_MS have passed, within a turn or with a bound of 0, the wait has expired. -/
theorem expired_of_timeoutMs_le {timeoutMs clkMod t0 elapsed : Nat} (ht0 : t0 < clkMod) (htimeout : timeoutMs < clkMod)
    (hpassed : timeoutMs ≤ elapsed) (hturn : elapsed < clkMod ∨ timeoutMs = 0) :
    expired (latchWait timeoutMs clkMod t0) ((t0 + elapsed) % clkMod) = true := by
  obtain hturn | rfl := hturn
  · exact (expiryMeansTheTimeHasPassed timeoutMs clkMod t0 elapsed ht0 htimeout hturn).mpr (.inl hpassed)
  · exact (expired_latchWait_of_lt ht0 _).mpr (le_or_gt ..)

/-- Before the bound and before the clock wraps it has not. -/
theorem not_expired_of_lt {timeoutMs clkMod t0 elapsed : Nat} (hbefore : elapsed < timeoutMs)
    (hunwrapped : t0 + elapsed < clkMod) : expired (latchWait timeoutMs clkMod t0) ((t0 + elapsed) % clkMod) ≠ true := by
  rw [Nat.mod_eq_of_lt hunwrapped]
  obtain hfits | hoverflow := Nat.lt_or_ge (t0 + timeoutMs) clkMod
  · rw [ne_eq, expired_latchWait_of_lt hfits]
    omega
  · rw [ne_eq, expired_latchWait_of_le hoverflow]
    omega

/-! ## One poll (R143, R145, R146) -/

/-- The step of WAIT_AUX that finds a scripted line high: one sample, and the end of the wait (R146). -/
theorem step_poll_high {s : State} {w : Waiter} {l : Latches} {rest : List Bool} (hq : s.sequencer = .waitAux w l)
    (haux : s.auxIn = true :: rest) :
    step s = .next (waitSucceeded w
      { s with auxIn := rest, draws := s.draws + 1, events := s.events ++ [.sample true] }) := by
  have hlevel : auxLevel s = true := by simp [auxLevel, haux]
  rw [step_waitAux hq, pollAux_high hlevel, afterSample, hlevel, haux]
  rfl

/-- The step of WAIT_AUX that finds a scripted line low: the scripted clock decides (R146). -/
theorem step_poll_low {s : State} {w : Waiter} {l : Latches} {rest : List Bool} {e : Nat} {more : List Nat}
    (hq : s.sequencer = .waitAux w l) (haux : s.auxIn = false :: rest) (helapsed : s.elapsedIn = e :: more) :
    step s = .next (if expired l ((s.clock + e) % s.params.clkMod) then returnStatus .timeout (afterReading (afterSample s))
      else afterReading (afterSample s)) := by
  rw [step_waitAux hq, pollAux_low (by simp [auxLevel, haux]), clockReading_of_elapsedIn (s := afterSample s) helapsed]
  rfl

/-- A low sample and the reading after it, written out (R35, R36). -/
theorem afterReading_afterSample {s : State} {rest : List Bool} {e : Nat} {more : List Nat}
    (haux : s.auxIn = false :: rest) (helapsed : s.elapsedIn = e :: more) :
    afterReading (afterSample s) =
      { s with
        auxIn := rest
        clock := (s.clock + e) % s.params.clkMod
        elapsedIn := more
        draws := s.draws + 2
        events := s.events ++ [.sample false, .clock ((s.clock + e) % s.params.clkMod)] } := by
  simp [afterReading, afterSample, clockReading, auxLevel, haux, helapsed]

/-- A wait of a WAIT_READY, whatever TGT is. -/
theorem Waiter.eq_waitReady {w : Waiter} (ho : w.origin = .waitReady) : w = .waitReady w.tgt := by
  cases w with
  | setMode c => cases ho
  | waitReady ot => rfl

/-- The end of a WAIT_READY leaves CUR_MODE (R148). -/
theorem waitSucceeded_waitReady {w : Waiter} (ho : w.origin = .waitReady) (s : State) :
    waitSucceeded w s = { s with sequencer := .idle s.tgt s.latches, status := some .success } := by
  rw [Waiter.eq_waitReady ho]
  rfl

/-- The end of a SET_MODE of a mode's code records the mode (R140). -/
theorem waitSucceeded_setMode {w : Waiter} {c : Byte} {m : Mode} (ho : w.origin = .setMode) (ht : w.tgt = some c)
    (hm : modeOf c = some m) (s : State) :
    waitSucceeded w s = { s with sequencer := .idle s.tgt s.latches, status := some .success, curMode := m } := by
  rw [Waiter.eq_setMode ho ht, waitSucceeded_eq, ← recordedMode_of_modeOf hm]

/-- A wait on the busy line with its waiter and its latches. -/
theorem exists_sequencer_of_waitAux {s : State} {o : Origin} (h : s.seq = .waitAux o) :
    ∃ (w : Waiter) (l : Latches), w.origin = o ∧ w.tgt = s.tgt ∧ s.sequencer = .waitAux w l := by
  obtain ⟨l, hl⟩ := Sequencer.latches_of_phase_waitAux h
  obtain ⟨w, hw⟩ := sequencer_of_waitAux h hl
  exact ⟨w, l, hw⟩

/-- Settles O35: the sample alone decides (D18), and the two waiters end differently. -/
theorem highLineEndsTheWaitWithSuccess : Obligations.HighLineEndsTheWaitWithSuccess := by
  intro s rest haux
  constructor
  · intro hseq
    obtain ⟨w, l, ho, -, hq⟩ := exists_sequencer_of_waitAux hseq
    rw [step_poll_high hq haux, waitSucceeded_waitReady ho]
    rfl
  · intro c m hseq htgt hm
    obtain ⟨w, l, ho, ht, hq⟩ := exists_sequencer_of_waitAux hseq
    rw [step_poll_high hq haux, waitSucceeded_setMode ho (ht.trans htgt) hm]
    rfl

/-- `expired` as one condition on OVF (R145). -/
theorem expired_eq_ite (l : Latches) (c : Nat) :
    expired l c = if l.ovf then decide (c < l.t0) else decide (l.deadline ≤ c ∨ c < l.t0) := by
  cases h : l.ovf <;> simp [expired, h]

/-- Settles O36: the reading decides between the end and the next poll, which differ in SEQ and STATUS only (D18, D19). -/
theorem lowLinePollsTheClock : Obligations.LowLinePollsTheClock := by
  intro s o l rest e more hseq hl haux helapsed
  obtain ⟨w, -, -, hq⟩ := sequencer_of_waitAux hseq hl
  refine ⟨_, rfl, ?_⟩
  rw [step_poll_low hq haux helapsed, afterReading_afterSample haux helapsed, ← expired_eq_ite]
  cases expired l ((s.clock + e) % s.params.clkMod) with
  | true => simp [returnStatus, hl]
  | false => rfl

/-! ## The fallback wait (R139, R147) -/

/-- The step of WAIT_FALLBACK of a SET_MODE of a mode's code (R140, R147). -/
theorem step_fallback_setMode {s : State} {w : Waiter} {l : Option Latches} {c : Byte} {m : Mode}
    (hq : s.sequencer = .waitFallback w l) (ho : w.origin = .setMode) (ht : w.tgt = some c) (hm : modeOf c = some m) :
    step s = .next { s with
      sequencer := .idle s.tgt s.latches, status := some .success, curMode := m
      events := s.events ++ [.hold s.params.fallbackMs] } := by
  rw [step_waitFallback hq, endFallback, waitSucceeded_setMode ho ht hm]
  rfl

/-- Settles O37: both entries find no busy line, and the step of WAIT_FALLBACK is a hold and Success (D9). -/
theorem fallbackWaitAssumesReadiness : Obligations.FallbackWaitAssumesReadiness := by
  intro s haux
  refine ⟨fun arg hidle => ?_, fun c hseq htgt => ?_, fun hseq => ?_, fun c m hseq htgt hm => ?_⟩
  · rw [exec_waitReady_idle hidle, enterWait_fallback haux]
  · exact step_settle2_fallback (sequencer_of_settle2_tgt hseq htgt) haux
  · obtain ⟨w, ho, -, hq⟩ := sequencer_of_waitFallback hseq
    rw [step_waitFallback hq, endFallback, waitSucceeded_waitReady ho]
    rfl
  · obtain ⟨w, ho, ht, hq⟩ := sequencer_of_waitFallback hseq
    exact step_fallback_setMode hq ho (ht.trans htgt) hm

/-! ## Whole operations of SET_MODE (R130, R131, R142) -/

/-- Settles O38: acceptance, then a hold in each step but ASSERT, which finds no line to drive. -/
theorem setModeUnwiredRecordsTheTarget : Obligations.SetModeUnwiredRecordsTheTarget := by
  intro c m s hidle hm h0 h1 haux
  have hassert : step { s with sequencer := .assert c s.latches, events := s.events ++ [.hold s.params.settleMs] } =
      .next { s with sequencer := .settle2 c s.latches, events := s.events ++ [.hold s.params.settleMs] } :=
    step_assert_absent rfl hm h0 h1
  have hsettle2 : step { s with sequencer := .settle2 c s.latches, events := s.events ++ [.hold s.params.settleMs] } =
      .next { s with
        sequencer := .waitFallback (.setMode c) s.latches
        events := s.events ++ [.hold s.params.settleMs] ++ [.hold s.params.settleMs] } :=
    step_settle2_fallback rfl haux
  refine ⟨_, exec_setMode_idle hidle c, ?_⟩
  rw [run_next (step_accepted c s), run_next hassert, run_next hsettle2,
    run_next (step_fallback_setMode rfl rfl rfl hm), run_zero]
  simp

/-- A SET_MODE with both lines wired that has just driven them to the bits of its target (R136). -/
def linesDriven (c : Byte) (s : State) : State :=
  { s with
    sequencer := .settle2 c s.latches
    m0 := some (targetM0 c)
    m1 := some (targetM1 c)
    orderIn := s.orderIn.tail
    draws := s.draws + 1
    events := s.events ++ [.hold s.params.settleMs] ++
      if m0DrivenFirst s then [.drive .m0 (targetM0 c), .drive .m1 (targetM1 c)]
      else [.drive .m1 (targetM1 c), .drive .m0 (targetM0 c)] }

/-- The same SET_MODE just before its first poll, when T0 has been read. -/
def atFirstPoll (c : Byte) (t0 : Nat) (s : State) : State :=
  { linesDriven c s with
    sequencer := .waitAux (.setMode c) (latchWait s.params.timeoutMs s.params.clkMod t0)
    clock := t0
    elapsedIn := s.elapsedIn.tail
    draws := s.draws + 2
    events := (linesDriven c s).events ++ [.hold s.params.settleMs, .clock t0] }

/-- A SET_MODE of a legal target with everything wired comes to its first poll three steps after its acceptance. -/
theorem run_setMode_atFirstPoll {s : State} {c : Byte} {m : Mode} {e : Nat} {more : List Nat} (hm : modeOf c = some m)
    (h0 : s.params.hasM0 = true) (h1 : s.params.hasM1 = true) (haux : s.params.hasAux = true)
    (helapsed : s.elapsedIn = e :: more) (k : Nat) :
    run (k + 3) { s with sequencer := .settle1 c s.latches } =
      run k (atFirstPoll c ((s.clock + e) % s.params.clkMod) s) := by
  have hassert : step { s with sequencer := .assert c s.latches, events := s.events ++ [.hold s.params.settleMs] } =
      .next (linesDriven c s) := step_assert_drives rfl hm h0 h1
  have ht0 : clockReading (linesDriven c s) = (s.clock + e) % s.params.clkMod := clockReading_of_elapsedIn helapsed
  have hsettle2 : step (linesDriven c s) = .next (atFirstPoll c ((s.clock + e) % s.params.clkMod) s) := by
    rw [← ht0]
    exact step_settle2_aux rfl haux
  rw [run_next (step_accepted c s), run_next hassert, run_next hsettle2]

/-- Settles O39: to the first poll, which finds the line high. -/
theorem setModeRunsItsStepsInOrder : Obligations.SetModeRunsItsStepsInOrder := by
  intro c m s e more rest order hidle hm h0 h1 haux helapsed hhigh horder
  have hfirst : m0DrivenFirst s = true := by simp [m0DrivenFirst, horder]
  have hpoll := step_poll_high (s := atFirstPoll c ((s.clock + e) % s.params.clkMod) s) rfl hhigh
  rw [waitSucceeded_setMode rfl rfl hm] at hpoll
  refine ⟨_, _, exec_setMode_idle hidle c,
    (run_setMode_atFirstPoll hm h0 h1 haux helapsed 1).trans (run_next hpoll 0),
    rfl, rfl, rfl, rfl, rfl, rfl, ?_, rfl, rfl, rfl, rfl⟩
  simp [atFirstPoll, linesDriven, hfirst, targetM0, targetM1]

/-- Settles O40: to the first poll, which finds the line low and TIMEOUT_MS passed since T0 (D24). -/
theorem timedOutSetModeLeavesTheLinesDriven : Obligations.TimedOutSetModeLeavesTheLinesDriven := by
  intro c s e0 e1 more rest hidle hc h0 h1 haux htimeout helapsed hlow hpassed hturn
  obtain ⟨m, hm⟩ := exists_modeOf_of_lt hc
  have hclkMod : 0 < s.params.clkMod := by omega
  have hexpired := expired_of_timeoutMs_le (Nat.mod_lt (s.clock + e0) hclkMod) htimeout hpassed (.inl hturn)
  have hpoll := (step_poll_low (s := atFirstPoll c ((s.clock + e0) % s.params.clkMod) s) rfl hlow
    (congrArg List.tail helapsed)).trans (congrArg _ (if_pos hexpired))
  exact ⟨_, _, exec_setMode_idle hidle c,
    (run_setMode_atFirstPoll hm h0 h1 haux helapsed 1).trans (run_next hpoll 0),
    rfl, rfl, rfl, rfl, rfl, rfl, rfl⟩

/-! ## The wait over many polls (R149, R209) -/

/-- `s` is in the wait `w`, `elapsed` milliseconds after its T0, with the latches of that T0. -/
structure WaitingSince (w : Waiter) (t0 elapsed : Nat) (s : State) : Prop where
  sequencer : s.sequencer = .waitAux w (latchWait s.params.timeoutMs s.params.clkMod t0)
  clock : s.clock = (t0 + elapsed) % s.params.clkMod

/-- A wait that has just read T0. -/
theorem waitingSince_entry {s : State} {o : Origin} (hseq : s.seq = .waitAux o) (hclock : s.clock < s.params.clkMod)
    (hl : s.latches = some (latchWait s.params.timeoutMs s.params.clkMod s.clock)) :
    ∃ w : Waiter, w.origin = o ∧ w.tgt = s.tgt ∧ WaitingSince w s.clock 0 s := by
  obtain ⟨w, ho, ht, hq⟩ := sequencer_of_waitAux hseq hl
  exact ⟨w, ho, ht, hq, (Nat.mod_eq_of_lt hclock).symm⟩

section
variable {w : Waiter} {t0 elapsed e : Nat} {more : List Nat} {rest : List Bool} {s : State}
variable (hs : WaitingSince w t0 elapsed s) (haux : s.auxIn = false :: rest) (helapsed : s.elapsedIn = e :: more)
include hs haux helapsed

/-- A poll with the line low, `e` milliseconds later, ends the wait if the reading has expired. -/
theorem WaitingSince.step_low :
    step s = .next
      (if expired (latchWait s.params.timeoutMs s.params.clkMod t0) ((t0 + (elapsed + e)) % s.params.clkMod) then
        returnStatus .timeout (afterReading (afterSample s))
      else afterReading (afterSample s)) := by
  rw [step_poll_low hs.sequencer haux helapsed, hs.clock, Nat.mod_add_mod, Nat.add_assoc]

/-- If it has not, the wait goes on with the latches it had. -/
theorem WaitingSince.afterPoll : WaitingSince w t0 (elapsed + e) (afterReading (afterSample s)) :=
  ⟨hs.sequencer, by rw [afterReading_afterSample haux helapsed, hs.clock, Nat.mod_add_mod, Nat.add_assoc]⟩

end

/-- Polls no further apart than CLK_MOD - TIMEOUT_MS cannot step over the bound: the first one that reaches it is within a
turn of T0 and ends the wait. The wait stands before the bound, or the bound is 0 and a poll is to come. -/
theorem run_deadLine {w : Waiter} {t0 elapsed : Nat} {polls more : List Nat} {rest : List Bool} {s : State}
    (hs : WaitingSince w t0 elapsed s) (ht0 : t0 < s.params.clkMod) (htimeout : s.params.timeoutMs < s.params.clkMod)
    (helapsedIn : s.elapsedIn = polls ++ more) (haux : s.auxIn = List.replicate polls.length false ++ rest)
    (hgap : ∀ e ∈ polls, e ≤ s.params.clkMod - s.params.timeoutMs) (hbound : s.params.timeoutMs ≤ elapsed + polls.sum)
    (hbefore : elapsed < s.params.timeoutMs ∨ s.params.timeoutMs = 0 ∧ polls ≠ []) :
    ∃ (k : Nat) (v : State), k ≤ polls.length ∧ run k s = .next v ∧
      v.seq = .idle ∧ v.status = some .timeout ∧ v.curMode = s.curMode ∧ v.m0 = s.m0 ∧ v.m1 = s.m1 := by
  induction polls generalizing s elapsed with
  | nil =>
    obtain hlt | ⟨-, hne⟩ := hbefore
    · rw [List.sum_nil] at hbound
      omega
    · exact absurd rfl hne
  | cons e polls ih =>
    have hstep := hs.step_low haux helapsedIn
    by_cases hexp :
        expired (latchWait s.params.timeoutMs s.params.clkMod t0) ((t0 + (elapsed + e)) % s.params.clkMod) = true
    · rw [if_pos hexp] at hstep
      exact ⟨1, _, by simp, run_next hstep 0, rfl, rfl, rfl, rfl, rfl⟩
    · rw [if_neg hexp] at hstep
      have hgap_e : e ≤ s.params.clkMod - s.params.timeoutMs := hgap e (by simp)
      have hbefore' : elapsed + e < s.params.timeoutMs := by
        by_contra hpassed
        exact hexp (expired_of_timeoutMs_le ht0 htimeout (by omega) (by omega))
      obtain ⟨k, v, hk, hrun, hv⟩ := ih (hs.afterPoll haux helapsedIn) ht0 htimeout
        (by simp [helapsedIn]) (by simp [haux, List.replicate_succ])
        (fun d hd => hgap d (by simp [hd])) (by simpa [Nat.add_assoc] using hbound) (.inl hbefore')
      exact ⟨k + 1, v, by simpa using hk, (run_next hstep k).trans hrun, hv⟩

/-- Settles O41: from T0 on (D19). -/
theorem waitOnDeadLineEndsWithTimeout : Obligations.WaitOnDeadLineEndsWithTimeout := by
  intro s o polls more rest hseq hclock htimeout hl helapsed haux hgap hbound hpolls
  obtain ⟨w, -, -, hs⟩ := waitingSince_entry hseq hclock hl
  have hbefore := (Nat.eq_zero_or_pos s.params.timeoutMs).symm.imp_right fun hzero => And.intro hzero hpolls
  exact run_deadLine hs hclock htimeout helapsed haux hgap (by omega) hbefore

/-- Polls with the line low that all come before the bound and before the clock wraps leave the wait. -/
theorem run_lowPolls {w : Waiter} {t0 elapsed : Nat} {polls more : List Nat} {rest : List Bool} {s : State}
    (hs : WaitingSince w t0 elapsed s) (helapsedIn : s.elapsedIn = polls ++ more)
    (haux : s.auxIn = List.replicate polls.length false ++ rest)
    (hbound : polls = [] ∨ elapsed + polls.sum < s.params.timeoutMs ∧ t0 + (elapsed + polls.sum) < s.params.clkMod)
    (k : Nat) :
    ∃ u, run (polls.length + k) s = run k u ∧ WaitingSince w t0 (elapsed + polls.sum) u ∧ u.auxIn = rest ∧
      u.curMode = s.curMode ∧ u.m0 = s.m0 ∧ u.m1 = s.m1 := by
  induction polls generalizing s elapsed with
  | nil => exact ⟨s, by simp, hs, haux, rfl, rfl, rfl⟩
  | cons e polls ih =>
    simp only [List.sum_cons, reduceCtorEq, false_or] at hbound
    have hstep := hs.step_low haux helapsedIn
    rw [if_neg (not_expired_of_lt (by omega) (by omega))] at hstep
    obtain ⟨u, hrun, hu, hrest, hsame⟩ := ih (hs.afterPoll haux helapsedIn)
      (by simp [helapsedIn]) (by simp [haux, List.replicate_succ])
      (.inr (by simpa [Nat.add_assoc] using hbound))
    refine ⟨u, ?_, by simpa [Nat.add_assoc] using hu, hrest, hsame⟩
    rw [List.length_cons, Nat.add_right_comm, run_next hstep, hrun]

/-- Settles O42: the polls that find the line low, then the one that finds it high (D18, D19). -/
theorem waitOnRisingLineEndsWithSuccess : Obligations.WaitOnRisingLineEndsWithSuccess := by
  intro s o polls more rest hseq hclock hl htgt helapsed haux hbound
  obtain ⟨w, ho, ht, hs⟩ := waitingSince_entry hseq hclock hl
  obtain ⟨u, hrun, hu, hhigh, hmode, hm0, hm1⟩ := run_lowPolls hs helapsed haux (by simpa using hbound) 1
  refine ⟨_, hrun.trans (run_next (step_poll_high hu.sequencer hhigh) 0), by simp, by simp, by simpa, by simpa, ?_⟩
  cases o with
  | setMode =>
    obtain ⟨c, hc, hlt⟩ := htgt rfl
    obtain ⟨m, hm⟩ := exists_modeOf_of_lt hlt
    exact ⟨c, hc, by rw [waitSucceeded_setMode ho (ht.trans hc) hm, hm]⟩
  | waitReady =>
    rw [waitSucceeded_waitReady ho]
    exact hmode

/-! ## Every step (R150, R151) -/

/-- Settles O44: each transition is a row of the table. -/
theorem phasesFollowTheTransitionTable : Obligations.PhasesFollowTheTransitionTable := by
  intro s t h
  cases step_transition h
  case waits hidle _ eq | rejects hidle _ _ eq => simp [hidle, eq]
  case accepts hidle _ _ eq =>
    rw [hidle]
    obtain ⟨-, ⟨-, ht⟩ | ⟨c, -, ht⟩ | ⟨a, -, ht⟩⟩ := exec_cases eq <;> rw [ht]
    · exact .inl hidle
    · exact .inr (.inl rfl)
    · obtain ⟨haux, hseq, -⟩ | ⟨haux, hseq, -⟩ := enterWait_cases (.waitReady s.tgt) (takeCommand s)
      · exact .inr (.inr (.inl ⟨hseq, haux⟩))
      · exact .inr (.inr (.inr ⟨hseq, haux⟩))
  case settled1 seq eq => simp [State.seq_of seq, eq]
  case badTarget c l seq mode eq =>
    simp [State.seq_of seq, State.tgt_of seq, eq, (modeOf_eq_none_iff c).mp mode]
  case drives c l m seq mode _ _ eq | skips c l m seq mode _ _ eq =>
    simp [State.seq_of seq, State.tgt_of seq, eq, toNat_lt_of_modeOf mode]
  case settled2 c l seq eq =>
    obtain ⟨haux, hseq, -⟩ | ⟨haux, hseq, -⟩ := enterWait_cases (.setMode c) (hold s.params.settleMs s) <;>
      rw [hold_params] at haux <;> simp [State.seq_of seq, eq, endSettle2, haux, hseq]
  case pollReady seq _ eq | pollExpired seq _ _ eq | pollAgain seq _ _ eq | fallback seq eq =>
    simp [State.seq_of seq, eq]

/-- CUR_MODE stays, or the wait of a SET_MODE has ended with Success (R140, R148). -/
theorem step_curMode_cases {s t : State} (h : step s = .next t) :
    t.curMode = s.curMode ∨
    (s.seq = .waitAux .setMode ∨ s.seq = .waitFallback .setMode) ∧ t.seq = .idle ∧ t.status = some .success := by
  cases step_transition h
  case waits seq _ _ | accepts seq _ _ _ | rejects seq _ _ _ =>
    obtain ⟨-, -, hmode, -⟩ := step_idle_frame h seq
    exact .inl hmode
  case pollReady w l seq _ eq | fallback w l seq eq =>
    cases w with
    | setMode c => simp [State.seq_of seq, eq]
    | waitReady ot => simp [eq, waitSucceeded_eq]
  case settled1 eq | badTarget eq | drives eq | skips eq | settled2 eq | pollExpired eq | pollAgain eq => simp [eq]

/-- Settles O45: what the end of a SET_MODE's wait records is a mode, that of TGT where TGT is a target code. -/
theorem onlySuccessfulSetModeChangesCurMode : Obligations.OnlySuccessfulSetModeChangesCurMode := by
  intro s t h
  refine ⟨(step_curMode_cases h).resolve_left, fun hseq hidle hsuccess => ?_⟩
  have hphase : s.seq.inSetMode = true ∧ s.seq.afterAssert = true := by
    obtain hs | hs := hseq <;> simp [hs, Phase.afterAssert]
  obtain ⟨c, hc⟩ := Sequencer.tgt_of_inSetMode hphase.1
  have hmode : t.curMode = recordedMode c := by
    obtain hbusy | ⟨-, hrecorded⟩ := step_inSetMode hphase.1 hc h
    · simp [hidle, Phase.inSetMode] at hbusy
    · exact hrecorded hsuccess
  rw [hmode]
  refine ⟨recordedMode_ne_unknown c, c, hc, fun hlt => ?_, fun hinv => ?_⟩
  · obtain ⟨m, hm⟩ := exists_modeOf_of_lt hlt
    rw [recordedMode_of_modeOf hm, hm]
  · obtain ⟨d, hd, hlt, -⟩ := hinv.targetAsserted hphase.2
    exact Option.some.inj (hd.symm.trans hc) ▸ hlt

end Sys2Proof.Machine
end

/-!
The auxiliary family (spec/43_aux_functions.md): the header comparison of HDR_CHK (R160, R161), the sum of CHAN_FREQ (R163),
and the model descriptor as the text of its parts (R164, R165).
-/

section
namespace Sys2Proof

/-! ## The letters of the parts of a descriptor (R164) -/

/-- Where a list names every value of a part, the letters written are those of some value. -/
theorem mem_map_letters_iff {Part : Type} (letters : Part → List Char) (parts : List Part)
    (hall : ∀ a, a ∈ parts) (l : List Char) : l ∈ parts.map letters ↔ ∃ a, l = letters a := by
  simp only [List.mem_map, hall, true_and, eq_comm]

/-- How a family is written in a descriptor. -/
def Family.letters : Family → List Char
  | .f230 => ['2', '3', '0']
  | .f400 => ['4', '0', '0']
  | .f900 => ['9', '0', '0']

theorem Family.mem_letters_iff (l : List Char) :
    l ∈ [['2', '3', '0'], ['4', '0', '0'], ['9', '0', '0']] ↔ ∃ f : Family, l = f.letters :=
  mem_map_letters_iff Family.letters [.f230, .f400, .f900] (fun f => by cases f <;> decide) l

namespace Machine

/-- How a series is written in a descriptor. -/
def Series.letters : Series → List Char
  | .t => ['T']
  | .r => ['R']
  | .mm => ['M', 'M']
  | .m => ['M']

/-- How a power class is written in a descriptor. -/
def PowerClass.letters : PowerClass → List Char
  | .dbm22 => ['2', '2']
  | .dbm30 => ['3', '0']

/-- How a package is written in a descriptor. -/
def Package.letters : Package → List Char
  | .smd => ['S']
  | .discrete => ['D']

theorem Series.mem_letters_iff (l : List Char) : l ∈ [['T'], ['R'], ['M', 'M'], ['M']] ↔ ∃ s : Series, l = s.letters :=
  mem_map_letters_iff Series.letters [.t, .r, .mm, .m] (fun s => by cases s <;> decide) l

theorem PowerClass.mem_letters_iff (l : List Char) : l ∈ [['2', '2'], ['3', '0']] ↔ ∃ p : PowerClass, l = p.letters :=
  mem_map_letters_iff PowerClass.letters [.dbm22, .dbm30] (fun p => by cases p <;> decide) l

theorem Package.mem_letters_iff (l : List Char) : l ∈ [['S'], ['D']] ↔ ∃ g : Package, l = g.letters :=
  mem_map_letters_iff Package.letters [.smd, .discrete] (fun g => by cases g <;> decide) l

/-- The text of a descriptor is the letters of its four parts. -/
theorem Descriptor.text_eq_letters (d : Descriptor) :
    d.text = d.family.letters ++ (d.series.letters ++ (d.power.letters ++ d.package.letters)) := by
  simp only [← List.append_assoc]
  rfl

/-! ## What each part of the pattern consumes (R164) -/

theorem matchFamily_eq_some_iff {l rest : List Char} {f : Family} :
    matchFamily l = some (f, rest) ↔ l = f.letters ++ rest := by
  constructor
  · intro h
    unfold matchFamily at h
    split at h <;> cases h <;> rfl
  · rintro rfl
    cases f <;> rfl

theorem matchPower_eq_some_iff {l rest : List Char} {p : PowerClass} :
    matchPower l = some (p, rest) ↔ l = p.letters ++ rest := by
  constructor
  · intro h
    unfold matchPower at h
    split at h <;> cases h <;> rfl
  · rintro rfl
    cases p <;> rfl

theorem matchPackage_eq_some_iff {l : List Char} {g : Package} : matchPackage l = some g ↔ l = g.letters := by
  constructor
  · intro h
    unfold matchPackage at h
    split at h <;> cases h <;> rfl
  · rintro rfl
    cases g <;> rfl

/-- The series needs what follows it: before another M, the letter M would be read as the start of MM. No power class
begins with M. -/
theorem matchSeries_eq_some_iff {l rest : List Char} {s : Series} (p : PowerClass) :
    matchSeries l = some (s, p.letters ++ rest) ↔ l = s.letters ++ (p.letters ++ rest) := by
  constructor
  · intro h
    unfold matchSeries at h
    split at h <;> cases h <;> rfl
  · rintro rfl
    cases s <;> cases p <;> rfl

/-! ## Construction (R164, R165) -/

/-- Construction succeeds when the four parts are found one after the other. -/
theorem constructModel_eq_ok_iff {text : List Char} {d : Descriptor} :
    constructModel text = .ok d ↔
      ∃ afterFamily afterSeries afterPower,
        matchFamily text = some (d.family, afterFamily) ∧ matchSeries afterFamily = some (d.series, afterSeries) ∧
        matchPower afterSeries = some (d.power, afterPower) ∧ matchPackage afterPower = some d.package := by
  obtain ⟨f, s, p, g⟩ := d
  constructor
  · intro h
    simp only [constructModel] at h
    split at h
    next found =>
      cases h
      simpa [Option.bind_eq_some_iff] using found
    next => cases h
  · rintro ⟨afterFamily, afterSeries, afterPower, hf, hs, hp, hg⟩
    simp [constructModel, hf, hs, hp, hg]

/-- Settles O23: each part found is its letters, read back in order. -/
theorem descriptorIsReadBackFromItsText : Obligations.DescriptorIsReadBackFromItsText := by
  intro text d
  rw [constructModel_eq_ok_iff, Descriptor.text_eq_letters]
  constructor
  · rintro ⟨afterFamily, afterSeries, afterPower, hf, hs, hp, hg⟩
    obtain rfl := matchPackage_eq_some_iff.mp hg
    obtain rfl := matchPower_eq_some_iff.mp hp
    obtain rfl := (matchSeries_eq_some_iff _).mp hs
    exact matchFamily_eq_some_iff.mp hf
  · intro htext
    exact ⟨_, _, _, matchFamily_eq_some_iff.mpr htext, (matchSeries_eq_some_iff _).mpr rfl,
      matchPower_eq_some_iff.mpr rfl, matchPackage_eq_some_iff.mpr rfl⟩

/-- InvalidModel is the only way construction fails. -/
theorem constructModel_eq_error {text : List Char} (h : ∀ d, constructModel text ≠ .ok d) :
    constructModel text = .error .invalidModel := by
  cases hc : constructModel text with
  | ok d => exact absurd hc (h d)
  | error e => cases e; rfl

/-- Settles O22: the strings of the pattern are the texts of the descriptors. -/
theorem descriptorsAreExactlyThePattern : Obligations.DescriptorsAreExactlyThePattern := by
  refine fun text => ⟨?_, constructModel_eq_error⟩
  simp only [descriptorIsReadBackFromItsText text, Family.mem_letters_iff, Series.mem_letters_iff,
    PowerClass.mem_letters_iff, Package.mem_letters_iff]
  constructor
  · rintro ⟨d, rfl⟩
    exact ⟨_, ⟨d.family, rfl⟩, _, ⟨d.series, rfl⟩, _, ⟨d.power, rfl⟩, _, ⟨d.package, rfl⟩, rfl⟩
  · rintro ⟨_, ⟨f, rfl⟩, _, ⟨s, rfl⟩, _, ⟨p, rfl⟩, _, ⟨g, rfl⟩, rfl⟩
    exact ⟨⟨f, s, p, g⟩, rfl⟩

/-! ## HDR_CHK (R160, R161) -/

/-- HDR_CHK on an idle sequencer (R160). -/
theorem exec_hdrChk_idle {s : State} (hidle : s.seq = .idle) (arg : Byte) :
    exec (.hdrChk arg) s = .next
      { s with status := some (headerStatus s.params.opcWrongFormat s.ports.got s.ports.expected) } := by
  rw [exec, execHdrChk, whenIdle_idle hidle, returnStatus_idle hidle]

/-- Two headers differ where one of their three bytes differs. -/
theorem Hdr.ne_iff_byte_ne (a b : Hdr) : a ≠ b ↔ a.cmd ≠ b.cmd ∨ a.addr ≠ b.addr ∨ a.len ≠ b.len := by
  obtain ⟨_, _, _⟩ := a
  obtain ⟨_, _, _⟩ := b
  simp only [ne_eq, Hdr.mk.injEq, not_and_or]

/-- The last two tests as the three comparisons of bytes (R161). -/
theorem headerStatus_eq_byte_tests (wrongFormat : Byte) (got expected : Hdr) :
    headerStatus wrongFormat got expected =
      if got.cmd = wrongFormat then .wrongFormat
      else if got.cmd ≠ expected.cmd ∨ got.addr ≠ expected.addr ∨ got.len ≠ expected.len then .headNotRecognized
      else .success := by
  simp only [headerStatus, ← Hdr.ne_iff_byte_ne, ite_not]

/-- Where the sentinel is not expected, a header that matches does not carry it, so the match may be tested first (D28). -/
theorem headerStatus_eq_match_first {wrongFormat : Byte} {expected : Hdr} (h : expected.cmd ≠ wrongFormat) (got : Hdr) :
    headerStatus wrongFormat got expected =
      if got = expected then .success
      else if got.cmd = wrongFormat then .wrongFormat
      else .headNotRecognized := by
  by_cases hmatch : got = expected
  · simp only [headerStatus, hmatch, h, if_true, if_false]
  · simp only [headerStatus, hmatch, if_false]

/-- Settles O20: the comparison of headers is the three comparisons of bytes, and the two orders of the tests agree (D28). -/
theorem hdrChkComparesTheHeaders : Obligations.HdrChkComparesTheHeaders := by
  intro arg s hidle
  rw [exec_hdrChk_idle hidle]
  refine ⟨?_, fun h => ?_⟩
  · rw [headerStatus_eq_byte_tests]
  · rw [headerStatus_eq_match_first h]

/-! ## CHAN_FREQ (R163) -/

/-- CHAN_FREQ on an idle sequencer (R163, log 13). -/
theorem exec_chanFreq_idle {s : State} (hidle : s.seq = .idle) (arg : Byte) :
    exec (.chanFreq arg) s =
      if s.ports.chan < 256 then
        .next { s with
          status := some .success
          results := { s.results with freq := some (s.ports.base + s.ports.chan) } }
      else .refused .channelOutOfDomain := by
  rw [exec, execChanFreq, whenIdle_idle hidle, returnStatus_idle (by exact hidle)]

/-- Settles O21: the two branches of CHAN_FREQ (R163, log 13). -/
theorem chanFreqAddsChannelToBase : Obligations.ChanFreqAddsChannelToBase := by
  intro arg s hidle
  rw [exec_chanFreq_idle hidle]
  exact ⟨fun h => if_pos (Nat.lt_succ_of_le h), fun h => if_neg (Nat.not_lt_of_le h)⟩

end Machine
end Sys2Proof
end

/-!
The exceptions family (spec/60_exceptions.md): where a step stops (R137, R163), and that every other step answers a next state
(R175).
-/

section
namespace Sys2Proof.Machine

/-! ## The two refusals (R137, R163) -/

/-- ASSERT of a legal target with exactly one mode-select line wired: what R137 refuses, where the lines would be driven
(D15, log 14). -/
def AssertsWithOneLine (s : State) : Prop :=
  (∃ c : Byte, s.seq = .assert ∧ s.tgt = some c ∧ c.toNat < 4) ∧ s.params.hasM0 ≠ s.params.hasM1

/-- A CHAN_FREQ presented to an idle sequencer with CHAN outside the function's domain: what R163 refuses. -/
def PresentsChannelOutOfDomain (s : State) : Prop :=
  s.seq = .idle ∧ 255 < s.ports.chan ∧ ∃ (w : Word) (arg : Byte), s.cmd = some w ∧ decode w = .ok (.chanFreq arg)

theorem step_refused_of_assertsWithOneLine {s : State} (h : AssertsWithOneLine s) :
    step s = .refused .oneModeLineWired := by
  obtain ⟨⟨c, hseq, htgt, hc⟩, hwiring⟩ := h
  exact oneWiredLineIsRefused c s hseq htgt hc hwiring

theorem step_refused_of_presentsChannelOutOfDomain {s : State} (h : PresentsChannelOutOfDomain s) :
    step s = .refused .channelOutOfDomain := by
  obtain ⟨hidle, hchan, w, arg, hcmd, hdec⟩ := h
  rw [stepRunsTheDecodedCommand s w _ hidle hcmd hdec]
  exact (chanFreqAddsChannelToBase arg { s with cmd := none } hidle).2 hchan

/-! ## Every other step answers (R150, R175) -/

/-- A word that decodes to no operation is rejected (R87). -/
theorem step_rejects {s : State} {w : Word} {e : DecodeError} (hidle : s.seq = .idle) (hcmd : s.cmd = some w)
    (hdec : decode w = .error e) : step s = rejectCommand (takeCommand s) := by
  simp only [step, hidle, hcmd, hdec]

/-- An idle sequencer waits, rejects a word, or runs an operation, and CHAN_FREQ alone can be refused (R60, R163, log 8). -/
theorem step_idle_answers {s : State} (hidle : s.seq = .idle) (hchannel : ¬ PresentsChannelOutOfDomain s) :
    ∃ t, step s = .next t := by
  cases hcmd : s.cmd with
  | none => exact ⟨s, step_idle_waits hidle hcmd⟩
  | some w =>
    cases hdec : decode w with
    | error e => exact ⟨_, step_rejects hidle hcmd hdec⟩
    | ok i =>
      rw [stepRunsTheDecodedCommand s w i hidle hcmd hdec]
      obtain hanswers | ⟨⟨arg, rfl⟩, hchan, -⟩ := exec_idle (s := { s with cmd := none }) hidle i
      · exact hanswers
      · exact absurd ⟨hidle, hchan, w, arg, hcmd, hdec⟩ hchannel

/-- ASSERT ends the operation for a code that is no mode, and goes on for a mode where the two wirings agree (R135 to R137). -/
theorem step_assert_answers {s : State} {c : Byte} {l : Option Latches} (hq : s.sequencer = .assert c l)
    (hlines : ¬ AssertsWithOneLine s) : ∃ t, step s = .next t := by
  cases hm : modeOf c with
  | none => exact ⟨_, step_assert_illegal hq ((modeOf_eq_none_iff c).mp hm)⟩
  | some m =>
    have hagree : s.params.hasM0 = s.params.hasM1 :=
      not_not.mp fun hwiring => hlines ⟨⟨c, State.seq_of hq, State.tgt_of hq, toNat_lt_of_modeOf hm⟩, hwiring⟩
    obtain ⟨t, hstep, -⟩ := step_assert_legal hq hm hagree
    exact ⟨t, hstep⟩

/-- A step answers a next state outside the two refusals: each phase but IDLE and ASSERT answers always (R150). -/
theorem step_answers {s : State} (hlines : ¬ AssertsWithOneLine s) (hchannel : ¬ PresentsChannelOutOfDomain s) :
    ∃ t, step s = .next t := by
  cases hq : s.sequencer with
  | idle ot l => exact step_idle_answers (State.seq_of hq) hchannel
  | settle1 c l => exact ⟨_, step_settle1 hq⟩
  | assert c l => exact step_assert_answers hq hlines
  | settle2 c l => exact ⟨_, step_settle2 hq⟩
  | waitAux w l => exact ⟨_, step_waitAux hq⟩
  | waitFallback w l => exact ⟨_, step_waitFallback hq⟩

/-- The invariant leaves no configuration with one mode-select line (R137). -/
theorem Inv.not_assertsWithOneLine {s : State} (hinv : Inv s) : ¬ AssertsWithOneLine s := by
  obtain ⟨hagree, -⟩ := hinv.paramsOk
  exact fun h => h.2 hagree

/-- Settles O56: the wiring of R137 is no configuration of the block, so the channel's domain is the only stop left. -/
theorem noStepStopsUnderTheInvariant : Obligations.NoStepStopsUnderTheInvariant := by
  intro s hinv
  by_cases hchannel : PresentsChannelOutOfDomain s
  · exact .inr ⟨step_refused_of_presentsChannelOutOfDomain hchannel, hchannel⟩
  · exact .inl (step_answers hinv.not_assertsWithOneLine hchannel)

/-- Settles O57: each refusal holds where its condition does, and outside both the step answers (D15, logs 8 and 14). -/
theorem stepsStopOnlyWhereTheSpecRefuses : Obligations.StepsStopOnlyWhereTheSpecRefuses := by
  intro s
  split_ifs with hlines hchannel
  · exact step_refused_of_assertsWithOneLine hlines
  · exact step_refused_of_presentsChannelOutOfDomain hchannel
  · exact step_answers hlines hchannel

end Sys2Proof.Machine
end

/-!
The reset family (spec/70_reset_and_hazards.md section 1): a block that waits for its first command stays as it is (R200).
-/

section
namespace Sys2Proof.Machine

/-- A fixed point of the step is a fixed point of every run. -/
theorem run_of_step_self {s : State} (h : step s = .next s) (k : Nat) : run k s = .next s := by
  induction k with
  | zero => exact run_zero s
  | succ k ih => exact (run_next h k).trans ih

/-- Settles O8: the step of an idle block without a command is a fixed point, so every run stays there (R200, log 8). -/
theorem idleBlockWithoutCommandStays : Obligations.IdleBlockWithoutCommandStays :=
  fun _ hidle hcmd => run_of_step_self (step_idle_waits hidle hcmd)

end Sys2Proof.Machine
end
